-- ==== Sys2Proof/Word.lean ====
section
/-!
DEFINITION. The word types of the unit and the one container the state is built from: a list of
(index, value) pairs in canonical form (indexes strictly rising, no entry equal to the default).
-/
namespace Sys2Proof

/-- One byte. -/
abbrev Byte := BitVec 8
/-- A control register, an operand of a settings record, a Krenus-P field register. -/
abbrev Word32 := BitVec 32
/-- A Krenus-C register or a Krenus-P metadata register. -/
abbrev Word64 := BitVec 64

/-- A sparse array: (index, value) pairs, indexes strictly rising, default values not listed. -/
abbrev SMap (α : Type) := List (Nat × α)

end Sys2Proof
end

