-- ==== Sys2Proof/Syntax.lean ====
section
/-!
DEFINITION. The commands the unit takes: one constructor per row of spec/opcode_table.json, with the row's
operands. A command is what the outside does to the unit (a frame, a cell, a bus message, a pin), what one of
its engines executes, or the instant at which something of its own falls due; a command whose condition does
not hold when it is taken has no effect.
-/
namespace Sys2Proof

/-- A Krenus-C engine: 0 the Triad, 1 the time engine, 2 + 2t + b the core b of tile t, 18 the Starter (R65). -/
abbrev EngineId := Fin 19
/-- A Krenus-C general register, k0 to k31. -/
abbrev KReg := Fin 32
/-- A queue of the unit's queue space. -/
abbrev QueueId := Fin 1048576
/-- A port or lane or Skov link, by its lowest lane (R22). -/
abbrev LaneId := Fin 512
/-- A packet pipe. -/
abbrev PipeId := Fin 32

/-- Who presents a register access (R82). -/
inductive Source where
  | triad | timeEngine
  /-- Core b of tile t. -/
  | tileCore (t : Fin 8) (b : Fin 2)
  | starter | i3c
  /-- An in-band control channel. -/
  | inband (ch : Fin 64)
deriving DecidableEq, Repr

/-- How the Triad's three channels present one output (R437, R438). -/
inductive Vote where
  | agree
  /-- One channel differs from the other two. -/
  | differs (ch : Fin 3)
  | allDiffer
deriving DecidableEq, Repr

/-- A byte that fails parity when a pipe reads it for the frame in hand (R431). -/
inductive PipeFlip where
  | clean
  /-- A register, Rind or edit of the frame, inside the pipe. -/
  | logic
  /-- A table, tree or program entry, a profile, or a cell, link word or descriptor of the frame. -/
  | stored
  /-- The fragment table entry of the frame. -/
  | frag
deriving DecidableEq, Repr

/-- How the repair of an entry that failed parity goes (R433). -/
inductive RepairOutcome where
  | repaired
  /-- Both shadow copies fail as well. -/
  | lost
  /-- The route domain's repair queue is full; so many detections wait. -/
  | overflow (waiting : BitVec 11)
deriving DecidableEq, Repr

/-- How a page read from the Cave ends (R276). -/
inductive PageRead where
  | clean
  /-- ECC corrected it. -/
  | corrected
  | uncorrectable
  /-- ECC passes and a byte of the k-th frame that the page completes fails parity. -/
  | badFrame (k : Nat)
deriving DecidableEq, Repr

/-- What of the Vat fails parity, or is rebuilt (R435). -/
inductive VatPart where
  | wordFails | wordRebuilt | recordFails
deriving DecidableEq, Repr

/-- A mismatch that an AUDIT pass finds (R441). -/
inductive AuditFinding where
  /-- Scope 0: a Triad channel differs. -/
  | triadChannel (ch : Fin 3)
  /-- Scope 2: an entry differs from its shadows; `lost` when all three differ. -/
  | entry (handle : BitVec 64) (lost : Bool)
  /-- Scope 3: bits of a configuration register have flipped. -/
  | register (addr flips : BitVec 32)
  /-- Scope 4: a free bitmap or holding record is wrong for a buffer. -/
  | buffer (handle : BitVec 32)
  /-- Scope 5: a link's replay buffer or sequence state is wrong. -/
  | link (n : LaneId)
deriving DecidableEq, Repr

/-- What the MAC found wrong on the line under a frame (R34, R394). -/
inductive LineFault where
  | clean
  /-- FEC lock or alignment was lost, or the port was removed, during the frame. -/
  | cut
  /-- A codeword that carries part of the frame is uncorrectable. -/
  | uncorrectable
  /-- An error or invalid control block lies within the frame. -/
  | coding
  /-- The lane-to-core FIFO overflowed on the frame. -/
  | overrun
deriving DecidableEq, Repr

/-- A partner's training frame as the lane decodes it (R376, R377, R382). -/
structure TrainFrame where
  /-- A coefficient step the partner asks for: the coefficient c(-3) to c(1) as 0 to 4, and whether up. -/
  request : Option (Fin 5 × Bool)
  /-- The partner reports its receiver ready. -/
  ready : Bool
  /-- The wake need the partner advertises, in us. -/
  wakeNeed : Option (BitVec 7)
  /-- The partner's offset from the reference, signed, in 1/16 ppm. -/
  offset : BitVec 16
deriving DecidableEq, Repr

/-- What a join request says of the unit that joins (R344, R346, R348). -/
structure JoinInfo where
  id : BitVec 48
  /-- The number asked for, where the host has written one. -/
  number : Option (Fin 1024)
  major : Nat
  minor : Nat
  levelMin : Nat
  levelMax : Nat
  /-- The incarnation it last held since power-on, and 0 when it has held none. -/
  incarnation : Nat
  epoch : Nat
  holdsFrames : Bool
deriving DecidableEq, Repr

/-- What a ROLL or BEAT cell says (R344 to R348, R352): the spec gives these payloads no byte layout. -/
inductive FabricMsg where
  /-- No ROLL or BEAT. -/
  | plain
  /-- An announcement: ID, system_id, number, incarnation, admission, versions and levels, the master in view and its
  epoch, whether the sender may be master, and the lowest ID that may be among it and the units beside it. -/
  | announce (id : BitVec 48) (systemId : BitVec 16) (number : Option (Fin 1024)) (incarnation : Nat)
      (admitted : Bool) (major minor levelMin levelMax : Nat) (master : Option (BitVec 48 × Fin 1024))
      (masterEpoch : Nat) (eligible : Bool) (lowest : Option (BitVec 48))
  /-- A join request on its way to the master. -/
  | join (info : JoinInfo)
  /-- An assignment: ID, number, incarnation, system epoch and level, and the MINOR of its firmware. -/
  | assign (id : BitVec 48) (number : Fin 1024) (incarnation epoch level minor : Nat)
  /-- A refusal, with the reason of R446 and the number asked for. -/
  | refuse (id : BitVec 48) (reason asked : Nat)
  /-- A BEAT: unit, incarnation, the oldest epoch of any frame held, when one is held. -/
  | beat (unit : Fin 1024) (incarnation : Nat) (oldest : Option Nat)
deriving DecidableEq, Repr


/-- The commands of spec/opcode_table.json, one constructor a row, in the table's order. -/
inductive Instr where
  /-- FRAME_RECEIVE (R394). The MAC receives a whole frame, checks it and either passes it to its pipe or drops it under one Whey reason. -/
  | frameReceive (port : LaneId) (bytes : List Byte) (fault : LineFault) (corrected : Nat)
  /-- INGRESS_SEQUENCE (R154). The pipe starts a frame from its ingress FIFO: stamps the epoch, selects a profile, extracts, runs 12 steps and acts on the results. -/
  | ingressSequence (pipe : PipeId) (flip : PipeFlip)
  /-- ENQUEUE (R284). An enqueue from a pipe, the resequencer or Q.ENQ is decided and the frame appended or dropped. -/
  | enqueue (flip : Bool)
  /-- STATE_FETCH (R287). The pager brings a queue state into the queue cache, evicting the least recently used state if needed. -/
  | stateFetch (q : QueueId)
  /-- COLD_WRITEBACK (R288). A state idle for cold_time is written back in the background and stays resident. -/
  | coldWriteback (q : QueueId)
  /-- PAGE_OUT (R290). The pager drains a staging list into a pool 5 page and ends the frames' holds. -/
  | pageOut (q : QueueId)
  /-- PAGE_FLUSH_EXPIRY (R290). The oldest staging frame has waited page_flush_us and a part page is written. -/
  | pageFlushExpiry (q : QueueId)
  /-- PAGE_IN (R291). The pager issues a read of the page at head_page when the head list is below page_in_mark. -/
  | pageIn (q : QueueId)
  /-- PAGE_IN_DONE (R293). A page read completes and its frames join the head list, or the page is lost. -/
  | pageInDone (q : QueueId) (read : PageRead)
  /-- PREFETCH (R294). The pager prefetches a queue's state and head page ahead of selection. -/
  | prefetch (q : QueueId)
  /-- EGRESS_SELECTION (R301). The pipe scheduler selects a frame for a port through levels Q, B and P. -/
  | egressSelection (pipe : PipeId) (flip : Option QueueId)
  /-- EPOCH_DRAIN_EXPIRY (R60). A head frame's wait passes epoch_drain_limit and it is dropped as EPOCH_STALE. -/
  | epochDrainExpiry (q : QueueId)
  /-- WHEEL_RELEASE (R306). The Wheel releases a shaper at its eligible time or re-places it from a coarse slot. -/
  | wheelRelease (shaper : Nat)
  /-- GATE_ENTRY_ADVANCE (R312). A gate control list entry's interval ends and the next entry's states take effect. -/
  | gateEntryAdvance (port : LaneId)
  /-- GATE_LIST_START (R315). A committed gate list starts at its computed start time. -/
  | gateListStart (port : LaneId)
  /-- PAUSE_STOP_EXPIRY (R317). A PAUSE or PFC stop runs out and the queues become selectable. -/
  | pauseStopExpiry (port : LaneId) (prio : Option (Fin 8))
  /-- EGRESS_SEQUENCE (R157). The egress pipe loads the Rind, runs 8 steps, applies edits and passes the frame on. -/
  | egressSequence (pipe : PipeId) (flip : PipeFlip)
  /-- FRAME_TRANSMIT (R396). The MAC sends a whole edited frame with preamble, FCS and gap. -/
  | frameTransmit (port : LaneId)
  /-- PAUSE_REFRESH (R400). Half of tx_quanta passes with the backlog above xon_kib and the stop frame is resent. -/
  | pauseRefresh (port : LaneId)
  /-- LPI_IDLE_EXPIRY (R401). lpi_idle_us passes with nothing to send and the port enters low-power idle. -/
  | lpiIdleExpiry (port : LaneId)
  /-- FABRIC_SEND (R332). A VOQ head covered by grants is sprayed as cells over the usable link set. -/
  | fabricSend (q : QueueId)
  /-- CELL_RECEIVE (R328). A Skov link receiver takes a cell, accepts or discards it by link sequence and dispatches it. -/
  | cellReceive (link : LaneId) (bytes : List Byte) (msg : FabricMsg) (flip : Bool)
  /-- LINK_CELL_EMIT (R330). A sender with nothing else to send emits a LINK cell every 1 µs. -/
  | linkCellEmit (link : LaneId) (flip : Bool)
  /-- LINK_NO_CELL_TIMEOUT (R330). No cell is received for 10 µs and the link dies. -/
  | linkNoCellTimeout (link : LaneId)
  /-- REQUEST_SEND (R335). A VOQ sends or repeats its cumulative request count. -/
  | requestSend (q : QueueId)
  /-- GRANT_ISSUE (R336). An egress queue issues a 4 KiB grant to a source and claims its reserve. -/
  | grantIssue (q : QueueId)
  /-- LEASE_EXPIRY (R338). A grant's 200 µs lease ends and unused reserve returns. -/
  | leaseExpiry (unit : Fin 1024) (grant : BitVec 16)
  /-- GRANT_AGE_EXPIRY (R338). A source discards a grant not used within 150 µs. -/
  | grantAgeExpiry (q : QueueId)
  /-- ASSEMBLY_TIMEOUT (R340). A frame incomplete 100 µs after its first cell is freed as LINK_LOST. -/
  | assemblyTimeout (unit : Fin 1024) (tag : BitVec 24)
  /-- REORDER_HOLD_EXPIRY (R52). A reorder hold expires, missing frames are declared lost and held frames released. -/
  | reorderHoldExpiry (unit : Fin 1024) (q : QueueId)
  /-- ROLL_ANNOUNCE (R344). Every 1 ms the unit sends a ROLL announcement on each up link. -/
  | rollAnnounce
  /-- JOIN_REQUEST (R348). The master decides a join request and admits or refuses the unit. -/
  | joinRequest
  /-- JOIN_RETRY (R346). A unit without admission sends or retries its join request. -/
  | joinRetry
  /-- BEAT_SEND (R352). Each beat_interval an admitted unit sends a BEAT to every reachable unit. -/
  | beatSend
  /-- UNIT_LOSS_TIMEOUT (R352). No cell from a unit for loss_beats × beat_interval and the unit is declared lost. -/
  | unitLossTimeout (unit : Fin 1024)
  /-- SIGNAL_DETECT (R376). Signal is detected and the CDR locks, leaving WAIT_SIGNAL. -/
  | signalDetect (lane : LaneId)
  /-- TRAINING_FRAME_RECEIVE (R379). A partner training frame is taken, restarting the timeout and advancing training. -/
  | trainingFrameReceive (lane : LaneId) (frame : TrainFrame)
  /-- RECEIVER_READY (R376). The receiver stops improving with eye at least eye_alarm and the lane enters WAIT_PARTNER. -/
  | receiverReady (lane : LaneId)
  /-- TRAINING_TIMEOUT (R378). training_timeout expires and the attempt fails into BACKOFF. -/
  | trainingTimeout (lane : LaneId)
  /-- ATTEMPT_LIMIT_EXPIRY (R378). The attempt limit expires and the attempt fails. -/
  | attemptLimitExpiry (lane : LaneId)
  /-- FEC_LOCK (R376). The FEC locks on every lane and the lanes go UP. -/
  | fecLock (n : LaneId)
  /-- FEC_LOCK_WAIT_EXPIRY (R377). The 10 ms FEC lock wait expires and every lane's attempt fails. -/
  | fecLockWaitExpiry (n : LaneId) (skew : Option (BitVec 16))
  /-- FEC_LOCK_LOSS (R381). The FEC loses lock for 1 µs and the lanes return to DATA. -/
  | fecLockLoss (n : LaneId)
  /-- BACKOFF_END (R377). The backoff ends and a new training attempt starts. -/
  | backoffEnd (lane : LaneId)
  /-- LANE_LOSS_OF_SIGNAL (R381). A lane loses signal, leaves UP or aborts training. -/
  | laneLossOfSignal (lane : LaneId)
  /-- ADAPTATION_UPDATE (R369). Every 10 µs receive adaptation updates its taps. -/
  | adaptationUpdate (lane : LaneId)
  /-- EYE_UPDATE (R370). Every 1 µs the eye figure is measured and eye_low follows it. -/
  | eyeUpdate (lane : LaneId) (eye : BitVec 16)
  /-- TILE_PLL_LOSS (R389). A tile's transmit PLL loses lock and its lanes are DISABLED. -/
  | tilePllLoss (t : Fin 8)
  /-- REST_IDLE_EXPIRY (R383). rest_idle_us passes with nothing to send and the direction enters rest. -/
  | restIdleExpiry (n : LaneId)
  /-- REST_REFRESH (R383). A resting sender sends a 1 µs refresh burst every 100 µs. -/
  | restRefresh (n : LaneId)
  /-- REST_WAKE (R383). Something to send arrives and the resting direction wakes. -/
  | restWake (n : LaneId)
  /-- REFRESH_TIMEOUT (R385). No refresh for 250 µs and loss of signal is declared. -/
  | refreshTimeout (n : LaneId)
  /-- WAKE_END (R385). The wake time ends; without CDR lock loss of signal is declared. -/
  | wakeEnd (n : LaneId) (cdr : Bool)
  /-- LANE_TEST_WRITE (R386). A write to LANE_TEST puts the lane in TEST or starts a new attempt on clearing. -/
  | laneTestWrite (lane : LaneId) (val : BitVec 32) (src : Source)
  /-- SECOND_BOUNDARY (R413). At each second boundary the references are voted and the discipline acts. -/
  | secondBoundary (freqA freqB freqC : Option (BitVec 32)) (servo : Bool)
  /-- PPS_EDGE (R429). A PPS input edge is captured into REF_CAP. -/
  | ppsEdge (ch : Fin 3) (inTime : Bool)
  /-- SCHEDULED_ACTION (R427). A TIME.AT action falls due and its write is issued. -/
  | scheduledAction (handle : Fin 64)
  /-- SLEW_COMPLETE (R134). A slew finishes absorbing its offset and TIME_SLEW_DONE is raised. -/
  | slewComplete
  /-- PTP_PARENT_LOSS (R415). The PTP servo loses its parent and the engine enters HOLDOVER. -/
  | ptpParentLoss
  /-- REF_CAP_ACK (R429). A write of ack clears the held PPS capture. -/
  | refCapAck (ch : Fin 3) (src : Source)
  /-- TSQ_POP (R421). A write of pop removes the head transmit record. -/
  | tsqPop (pipe : PipeId) (src : Source)
  /-- LEARN_APPLY (R211). The learner writes a queued learn or move into the layer-2 table. -/
  | learnApply
  /-- TURNER_VISIT (R217). The Turner visits a dynamic entry, ageing or removing it. -/
  | turnerVisit (bank : Fin 2) (bucket : Fin 131072) (way : Fin 8)
  /-- L2_FLUSH (R214). A write of go to L2_FLUSH starts a flush of matching dynamic entries. -/
  | l2Flush (word : BitVec 32) (src : Source)
  /-- L2_FLUSH_DONE (R214). A flush has visited every entry and raises L2_FLUSH_DONE. -/
  | l2FlushDone
  /-- REHASH_DONE (R215). A rehash completes or halts and REHASH_DONE is raised. -/
  | rehashDone (bank : Fin 2)
  /-- PLACEMENT (R236). A shuffler places a queued route by make-before-break moves. -/
  | placement (d : Fin 2)
  /-- ROUTE_SCRUB (R251). The scrubber compares route rows against their Cave shadows and repairs mismatches. -/
  | routeScrub (slice : Fin 64) (row : Nat) (mismatch : Bool)
  /-- FRAG_EXPIRY (R201). A fragment entry's frag_age passes and the entry is freed. -/
  | fragExpiry (bucket : Fin 4096) (way : Fin 16)
  /-- CAVE_CHANNEL_FAIL (R277). A Cave channel fails in service and claims from it stop. -/
  | caveChannelFail (c : Fin 8)
  /-- CAVE_CHANNEL_READY (R277). A Cave channel trains and its READY bit sets. -/
  | caveChannelReady (c : Fin 8)
  /-- QUEUE_COPY_REBUILD (R277). A lost queue-state copy or shadow is rebuilt on another channel. -/
  | queueCopyRebuild (q : QueueId)
  /-- QUEUE_FLUSH_DONE (R132). A Q.FLUSH ends and QUEUE_FLUSHED is recorded. -/
  | queueFlushDone (q : QueueId)
  /-- STAGE_OPEN (R60). A pending EPOCH.STAGE opens once no frame of the overwritten generation remains. -/
  | stageOpen
  /-- COMMIT_EFFECT (R241). A commit takes effect at PD03/EPOCH once both shuffler queues are empty. -/
  | commitEffect
  /-- COMMIT_AT_TIME (R357). A scheduled commit's time is reached on the core copy. -/
  | commitAtTime
  /-- PIPE_CUTOVER (R193). A pipe cuts over to the new epoch at a frame boundary, pausing to load changed roots if needed. -/
  | pipeCutover (p : PipeId)
  /-- ADD (R115). kd ← ka + kb modulo 2⁶⁴. -/
  | add (e : EngineId) (kd ka kb : KReg)
  /-- SUB (R115). kd ← ka − kb modulo 2⁶⁴. -/
  | sub (e : EngineId) (kd ka kb : KReg)
  /-- AND (R115). kd ← ka AND kb. -/
  | and (e : EngineId) (kd ka kb : KReg)
  /-- OR (R115). kd ← ka OR kb. -/
  | or (e : EngineId) (kd ka kb : KReg)
  /-- XOR (R115). kd ← ka XOR kb. -/
  | xor (e : EngineId) (kd ka kb : KReg)
  /-- SHL (R115). kd ← ka shifted left by kb[5:0]. -/
  | shl (e : EngineId) (kd ka kb : KReg)
  /-- SHR (R115). kd ← ka shifted right zero-filled. -/
  | shr (e : EngineId) (kd ka kb : KReg)
  /-- SAR (R115). kd ← ka shifted right sign-filled. -/
  | sar (e : EngineId) (kd ka kb : KReg)
  /-- SLT (R115). Signed less-than compare. -/
  | slt (e : EngineId) (kd ka kb : KReg)
  /-- SLTU (R115). Unsigned less-than compare. -/
  | sltu (e : EngineId) (kd ka kb : KReg)
  /-- MUL (R115). Low 64 bits of the product. -/
  | mul (e : EngineId) (kd ka kb : KReg)
  /-- MULHU (R115). High 64 bits of the unsigned product. -/
  | mulhu (e : EngineId) (kd ka kb : KReg)
  /-- DIVU (R115). Unsigned division. -/
  | divu (e : EngineId) (kd ka kb : KReg)
  /-- REMU (R115). Unsigned remainder. -/
  | remu (e : EngineId) (kd ka kb : KReg)
  /-- DIV (R115). Signed division. -/
  | div (e : EngineId) (kd ka kb : KReg)
  /-- REM (R115). Signed remainder. -/
  | rem (e : EngineId) (kd ka kb : KReg)
  /-- POPC (R115). Count of 1 bits. -/
  | popc (e : EngineId) (kd ka : KReg)
  /-- CLZ (R115). Leading zeros. -/
  | clz (e : EngineId) (kd ka : KReg)
  /-- CTZ (R115). Trailing zeros. -/
  | ctz (e : EngineId) (kd ka : KReg)
  /-- BSWAP (R115). Byte reversal. -/
  | bswap (e : EngineId) (kd ka : KReg)
  /-- CRC32C (R115). CRC-32C of kb continued from ka. -/
  | crc32c (e : EngineId) (kd ka kb : KReg)
  /-- ADDI (R116). Add sign-extended immediate. -/
  | addi (e : EngineId) (kd ka : KReg) (imm : BitVec 16)
  /-- ANDI (R116). AND zero-extended immediate. -/
  | andi (e : EngineId) (kd ka : KReg) (imm : BitVec 16)
  /-- ORI (R116). OR zero-extended immediate. -/
  | ori (e : EngineId) (kd ka : KReg) (imm : BitVec 16)
  /-- XORI (R116). XOR zero-extended immediate. -/
  | xori (e : EngineId) (kd ka : KReg) (imm : BitVec 16)
  /-- SHI (R116). Shift or rotate by an immediate amount. -/
  | shi (e : EngineId) (kd ka : KReg) (imm : BitVec 8)
  /-- LUI (R116). Load sign-extended imm21 shifted left by 16. -/
  | lui (e : EngineId) (kd : KReg) (imm : BitVec 21)
  /-- LD_B (R117). Load byte zero-extended. -/
  | ldB (e : EngineId) (kd ka : KReg) (off : BitVec 16)
  /-- LD_H (R117). Load halfword zero-extended. -/
  | ldH (e : EngineId) (kd ka : KReg) (off : BitVec 16)
  /-- LD_W (R117). Load word zero-extended. -/
  | ldW (e : EngineId) (kd ka : KReg) (off : BitVec 16)
  /-- LD_D (R117). Load doubleword. -/
  | ldD (e : EngineId) (kd ka : KReg) (off : BitVec 16)
  /-- LD_BS (R117). Load byte sign-extended. -/
  | ldBs (e : EngineId) (kd ka : KReg) (off : BitVec 16)
  /-- LD_HS (R117). Load halfword sign-extended. -/
  | ldHs (e : EngineId) (kd ka : KReg) (off : BitVec 16)
  /-- LD_WS (R117). Load word sign-extended. -/
  | ldWs (e : EngineId) (kd ka : KReg) (off : BitVec 16)
  /-- ST_B (R117). Store byte. -/
  | stB (e : EngineId) (kd ka : KReg) (off : BitVec 16) (vote : Vote)
  /-- ST_H (R117). Store halfword. -/
  | stH (e : EngineId) (kd ka : KReg) (off : BitVec 16) (vote : Vote)
  /-- ST_W (R117). Store word. -/
  | stW (e : EngineId) (kd ka : KReg) (off : BitVec 16) (vote : Vote)
  /-- ST_D (R117). Store doubleword. -/
  | stD (e : EngineId) (kd ka : KReg) (off : BitVec 16) (vote : Vote)
  /-- BEQ (R118). Branch if equal. -/
  | beq (e : EngineId) (ka kb : KReg) (off : BitVec 16)
  /-- BNE (R118). Branch if not equal. -/
  | bne (e : EngineId) (ka kb : KReg) (off : BitVec 16)
  /-- BLT (R118). Branch if signed less. -/
  | blt (e : EngineId) (ka kb : KReg) (off : BitVec 16)
  /-- BGE (R118). Branch if signed greater or equal. -/
  | bge (e : EngineId) (ka kb : KReg) (off : BitVec 16)
  /-- BLTU (R118). Branch if unsigned less. -/
  | bltu (e : EngineId) (ka kb : KReg) (off : BitVec 16)
  /-- BGEU (R118). Branch if unsigned greater or equal. -/
  | bgeu (e : EngineId) (ka kb : KReg) (off : BitVec 16)
  /-- JAL (R118). Jump and link into k1. -/
  | jal (e : EngineId) (off : BitVec 26)
  /-- JALR (R118). Jump to register plus offset and link. -/
  | jalr (e : EngineId) (kd ka : KReg) (imm : BitVec 16)
  /-- CSR_RD (R119). Read an engine register. -/
  | csrRd (e : EngineId) (kd : KReg) (sel : BitVec 10)
  /-- CSR_WR (R119). Write an engine register. -/
  | csrWr (e : EngineId) (ka : KReg) (sel : BitVec 10)
  /-- TRAP_CALL (R119). Trap to T0 with cause TRAP_CALL. -/
  | trapCall (e : EngineId) (sel : BitVec 10)
  /-- TRAP_RET (R119). Return from trap to prev_tier. -/
  | trapRet (e : EngineId)
  /-- WAIT (R119). Stop fetching until an enabled interrupt source is pending. -/
  | wait (e : EngineId)
  /-- INTERRUPT_TAKEN (R87). A pending enabled interrupt is taken between instructions. -/
  | interruptTaken (e : EngineId)
  /-- LDC (R120). Read a 32-bit control register. -/
  | ldc (e : EngineId) (kd ka : KReg) (off : BitVec 16) (vote : Vote)
  /-- STC (R120). Write a 32-bit control register. -/
  | stc (e : EngineId) (kd ka : KReg) (off : BitVec 16) (vote : Vote)
  /-- COPY (R121). Copy up to 65,535 bytes between buffers. -/
  | copy (e : EngineId) (ka kb kc : KReg)
  /-- TBL_WR (R127). Write an indexed entry into the shadow generation. -/
  | tblWr (e : EngineId) (kd ka kb : KReg)
  /-- TBL_RD (R127). Copy a live or shadow entry to memory. -/
  | tblRd (e : EngineId) (kd ka kb kc : KReg)
  /-- TBL_INS (R127). Insert a keyed entry into the shadow generation. -/
  | tblIns (e : EngineId) (kd ka kb : KReg)
  /-- TBL_DEL (R127). Delete a keyed entry in the shadow generation. -/
  | tblDel (e : EngineId) (kd ka kb : KReg)
  /-- TBL_FIND (R127). Search the live table for a key. -/
  | tblFind (e : EngineId) (kd ka kb kc : KReg)
  /-- TBL_PROG (R127). Write and check a Krenus-P program into a shadow slot. -/
  | tblProg (e : EngineId) (kd ka kb kc : KReg)
  /-- REHASH (R129). Start re-seeding a layer-2 bank in the background. -/
  | rehash (e : EngineId) (kd ka kb : KReg)
  /-- VAT_ALLOC (R264). Allocate a general buffer from pools 1 to 4. -/
  | vatAlloc (e : EngineId) (kd ka : KReg)
  /-- VAT_ALLOC_P (R130). Allocate one buffer from a named pool. -/
  | vatAllocP (e : EngineId) (kd ka : KReg)
  /-- VAT_FREE (R131). End the named last owner's hold. -/
  | vatFree (e : EngineId) (kd ka : KReg)
  /-- VAT_RELEASE (R131). End a sharer's hold. -/
  | vatRelease (e : EngineId) (kd ka : KReg)
  /-- VAT_SHARE (R259). Add sharer holds and name a new last owner. -/
  | vatShare (e : EngineId) (kd ka kb kc : KReg)
  /-- Q_ENQ (R132). Enqueue a Triad-built frame. -/
  | qEnq (e : EngineId) (kd ka kb : KReg)
  /-- Q_READ (R132). Copy a queue state to memory. -/
  | qRead (e : EngineId) (kd ka kb : KReg)
  /-- Q_FLUSH (R289). Start dropping every frame of a queue. -/
  | qFlush (e : EngineId) (kd ka : KReg)
  /-- Q_PIN (R132). Keep a queue state resident. -/
  | qPin (e : EngineId) (kd ka : KReg)
  /-- Q_UNPIN (R132). Let the pager move a queue state. -/
  | qUnpin (e : EngineId) (kd ka : KReg)
  /-- Q_LOCK (R289). Take a queue lock. -/
  | qLock (e : EngineId) (kd ka : KReg)
  /-- Q_UNLOCK (R132). Give back a queue lock. -/
  | qUnlock (e : EngineId) (kd ka : KReg)
  /-- TIME_RD (R134). Write a time record to memory. -/
  | timeRd (e : EngineId) (kd ka : KReg)
  /-- TIME_RDN (R134). Return nanoseconds and fraction. -/
  | timeRdn (e : EngineId) (kd : KReg)
  /-- TIME_SET (R134). Set the time, or step it when set. -/
  | timeSet (e : EngineId) (kd ka : KReg)
  /-- TIME_STEP (R408). Step the time within the step threshold. -/
  | timeStep (e : EngineId) (kd ka : KReg)
  /-- TIME_SLEW (R135). Start absorbing an offset at a rate. -/
  | timeSlew (e : EngineId) (kd ka kb : KReg)
  /-- TIME_AT (R135). Schedule a control write at a time. -/
  | timeAt (e : EngineId) (kd ka kb kc : KReg)
  /-- TIME_CANCEL (R135). Cancel a scheduled action. -/
  | timeCancel (e : EngineId) (kd ka : KReg)
  /-- EPOCH_STAGE (R136). Open the shadow generation. -/
  | epochStage (e : EngineId) (kd : KReg)
  /-- EPOCH_COMMIT (R136). Make the shadow generation live. -/
  | epochCommit (e : EngineId) (kd : KReg)
  /-- EPOCH_COMMIT_AT (R137). Schedule a commit at a time. -/
  | epochCommitAt (e : EngineId) (kd ka : KReg)
  /-- EPOCH_CANCEL (R137). Cancel a scheduled commit. -/
  | epochCancel (e : EngineId) (kd : KReg)
  /-- EPOCH_STATUS (R136). Return the epoch state. -/
  | epochStatus (e : EngineId) (kd : KReg)
  /-- CTR_FREEZE (R516). Stop or run all performance counters. -/
  | ctrFreeze (e : EngineId) (kd ka : KReg)
  /-- CTR_SNAP (R516). Snapshot all counters in one clock. -/
  | ctrSnap (e : EngineId) (kd : KReg)
  /-- CTR_RD (R138). Read a live or snapshot counter. -/
  | ctrRd (e : EngineId) (kd ka : KReg)
  /-- CTR_OVF (R138). Read and optionally clear a counter's overflow bit. -/
  | ctrOvf (e : EngineId) (kd ka : KReg)
  /-- CTR_WR (R515). Preset a counter. -/
  | ctrWr (e : EngineId) (kd ka kb : KReg)
  /-- FAULT_RAISE (R139). Write an event to the ledger. -/
  | faultRaise (e : EngineId) (kd ka : KReg)
  /-- FAULT_DECLARE (R139). Declare a party faulted and pass its holdings to the Scraper. -/
  | faultDeclare (e : EngineId) (kd ka : KReg)
  /-- AUDIT_RUN (R140). Start an audit pass over the selected scopes. -/
  | auditRun (e : EngineId) (kd ka : KReg)
  /-- AUDIT_DONE (R441). An audit pass ends, repairing and reporting each mismatch. -/
  | auditDone (found : List AuditFinding)
  /-- TABLE_REPAIR (R433). An entry that failed parity is rewritten from its Cave shadow. -/
  | tableRepair (handle : BitVec 64) (outcome : RepairOutcome)
  /-- VAT_WORD_REBUILD (R435). A free-bitmap word is rebuilt from holding records. -/
  | vatWordRebuild (pool : Fin 8) (index : Nat) (part : VatPart)
  /-- CFG_PARITY_CHECK (R432). Configuration register parity is checked and a mismatch takes the safe value. -/
  | cfgParityCheck (addr : BitVec 32) (flips : BitVec 32)
  /-- SCRAPER_RECOVERY (R434). The Scraper starts recovering the next declared party. -/
  | scraperRecovery
  /-- SCRAPER_DONE (R271). The Scraper's walk ends and SCRAPER_DONE is raised. -/
  | scraperDone
  /-- PIPE_STEP_TIMEOUT (R436). A step fails to end within 8 clocks and the pipe is declared faulted. -/
  | pipeStepTimeout (p : PipeId)
  /-- PIPE_RESET_COMPLETE (R436). A faulted pipe's reset and reload complete. -/
  | pipeResetComplete (p : PipeId)
  /-- PIPE_RESTORED (R436). A faulted pipe starts frames again. -/
  | pipeRestored (p : PipeId)
  /-- RESYNC_COMPLETE (R439). An isolated Triad channel is resynchronised and TRIPLEX resumes. -/
  | resyncComplete
  /-- SRAM_PASS_COMPLETE (R439). The background SRAM comparison pass ends. -/
  | sramPassComplete (allDiffer : Bool)
  /-- HEADLESS_LIMIT_EXPIRY (R440). headless_limit expires and every port and link stops. -/
  | headlessLimitExpiry
  /-- TRIAD_RETURN (R439). A write brings a retired Triad channel back by resync. -/
  | triadReturn (val : BitVec 32) (src : Source)
  /-- SCRAPER_PIPE_RESTORE (R436). A write restores a pipe faulted twice within 1 s. -/
  | scraperPipeRestore (val : BitVec 32) (src : Source)
  /-- LEDGER_WRITE (R442). An event from the input FIFO is written to the ledger ring. -/
  | ledgerWrite
  /-- WRITE (R455). I3C register write message. -/
  | i3cWrite (bytes : List Byte) (parityOk : Bool)
  /-- READ_SETUP (R455). I3C read setup message. -/
  | i3cReadSetup (bytes : List Byte) (parityOk : Bool)
  /-- READ (R455). I3C register read message. -/
  | i3cRead (code : BitVec 8)
  /-- ENTDAA (R452). Dynamic address assignment by provisioned ID. -/
  | entdaa (won : Bool) (addr : BitVec 7)
  /-- RSTDAA (R452). Reset the dynamic address. -/
  | rstdaa
  /-- SETNEWDA (R452). Set a new dynamic address after the STOP. -/
  | setnewda (addr : BitVec 7)
  /-- GETPID (R451). Return the provisioned ID. -/
  | getpid
  /-- GETBCR (R451). Return the BCR. -/
  | getbcr
  /-- GETDCR (R451). Return the DCR. -/
  | getdcr
  /-- GETSTATUS (R450). Return device status. -/
  | getstatus
  /-- GETMWL (R451). Return the maximum write length. -/
  | getmwl
  /-- GETMRL (R451). Return the maximum read length. -/
  | getmrl
  /-- SETMWL (R450). Set the maximum write length. -/
  | setmwl (n : BitVec 16)
  /-- SETMRL (R450). Set the maximum read length. -/
  | setmrl (n : BitVec 16) (ibi : BitVec 8)
  /-- GETMXDS (R450). Return maximum data speed. -/
  | getmxds
  /-- GETCAPS (R450). Return capabilities. -/
  | getcaps
  /-- ENEC (R453). Enable interrupts or Hot-Join. -/
  | enec (bits : BitVec 8)
  /-- DISEC (R453). Disable interrupts or Hot-Join. -/
  | disec (bits : BitVec 8)
  /-- ENTHDR0 (R450). Enter HDR-DDR mode. -/
  | enthdr0
  /-- ENTHDR_UNSUPPORTED (R450). ENTHDR1 to 3: the bus is ignored until the HDR Exit Pattern. -/
  | enthdrUnsupported
  /-- HOT_JOIN_REQUEST (R453). An unaddressed unit sends or repeats a Hot-Join request. -/
  | hotJoinRequest (acked : Bool)
  /-- IBI_REQUEST (R456). A pending source requests or repeats an in-band interrupt. -/
  | ibiRequest (src : Fin 4) (acked : Bool)
  /-- CONTROL_FRAME (R463). The control port takes a control frame, authenticates it and applies, holds or discards it by sequence. -/
  | controlFrame (q : QueueId)
  /-- KEY_LOAD (R466). Copy the key staging into a key slot. -/
  | keyLoad (slot : Fin 2) (src : Source)
  /-- KEY_CLEAR (R466). Erase a key slot. -/
  | keyClear (slot : Fin 2) (src : Source)
  /-- REGISTER_WRITE (R467). A write through an alias to a register with no row of its own. -/
  | registerWrite (src : Source) (addr val : BitVec 32)
  /-- EPOCH_CMD_STAGE (R491). Register form of EPOCH.STAGE. -/
  | epochCmdStage (src : Source)
  /-- EPOCH_CMD_COMMIT (R491). Register form of EPOCH.COMMIT. -/
  | epochCmdCommit (src : Source)
  /-- EPOCH_CMD_COMMIT_AT (R491). Register form of EPOCH.COMMIT.AT. -/
  | epochCmdCommitAt (src : Source)
  /-- EPOCH_CMD_CANCEL (R491). Register form of EPOCH.CANCEL. -/
  | epochCmdCancel (src : Source)
  /-- VAT_FILL_GO (R270). Start a cell copy command between scratch and a pool 0 cell. -/
  | vatFillGo (src : Source)
  /-- VAT_SEG_MAP_WRITE (R254). Move scratch segments between pools, refused if held. -/
  | vatSegMapWrite (r : Fin 16) (val : BitVec 32) (src : Source)
  /-- VAT_POOL6_CFG_WRITE (R256). Change pool 6 buffers per channel, refused if held. -/
  | vatPool6CfgWrite (val : BitVec 32) (src : Source)
  /-- MAC_FC_TX_SEND (R400). Send one flow-control frame on command. -/
  | macFcTxSend (port : LaneId) (resume : Bool) (src : Source)
  /-- FREEZE_WRITE (R516). Write of PERF_CTRL freeze stops or runs the counters. -/
  | freezeWrite (freeze : Bool) (src : Source)
  /-- SNAP_WRITE (R516). Write of snap takes a counter snapshot. -/
  | snapWrite (src : Source)
  /-- PORT_SNAPSHOT_READY (R516). The port statistics snapshot becomes readable and snapping clears. -/
  | portSnapshotReady
  /-- OVF_CLEAR (R514). Clear a counter's overflow bit. -/
  | ovfClear (n : Fin 256) (src : Source)
  /-- FLOW_CAPTURE (R519). A FLOW_SEL write captures both counts of a flow counter. -/
  | flowCapture (r : Fin 4) (index : BitVec 32) (src : Source)
  /-- FLOW_ZERO (R519). Zero both counts of the selected flow counter. -/
  | flowZero (r : Fin 4) (src : Source)
  /-- TELEMETRY_EXPORT (R524). Each interval_ms a dump is captured into a pool 6 buffer. -/
  | telemetryExport
  /-- RST_N_ASSERT (R458). RST_N held low resets every domain except I3C state and the ledger. -/
  | rstNAssert
  /-- PGOOD_IN_FALL (R458). PGOOD_IN falls, resetting and clearing the dynamic address. -/
  | pgoodInFall
  /-- BOOT_ANCHOR (R470). The later rising edge of RST_N and PGOOD_IN starts the Starter ROM. -/
  | bootAnchor (mode : BitVec 2)
  /-- DOMAIN_POWER_ON (R471). A domain reports on and the sequencer starts the next. -/
  | domainPowerOn (d : Fin 30)
  /-- SETTINGS_APPLY (R482). Base and mould records are staged into one epoch. -/
  | settingsApply
  /-- BOOT_COMMIT (R482). Once the core READY bits set, T0 firmware commits epoch 1. -/
  | bootCommit
  /-- HOLD (R483). Boot command: stop at the next step. -/
  | bootHold
  /-- CONTINUE (R483). Boot command: resume the boot. -/
  | bootContinue
  /-- SELECT_MOULD (R483). Boot command: choose the mould of this boot. -/
  | selectMould
  /-- SELECT_SLOT (R483). Boot command: choose the only slot tried. -/
  | selectSlot
  /-- TRIAD_RESTART (R483). Boot command: halt and reload the Triad. -/
  | triadRestart
  /-- REBOOT (R483). Boot command: act as RST_N held low for 1 µs. -/
  | reboot
  /-- STARTER_MOULD_GO (R492). Apply a mould in service in one epoch. -/
  | starterMouldGo (src : Source)
  /-- SETTINGS_WRITE (R477). The Starter writes a new settings set into the other Pyke half. -/
  | settingsWrite (bytes : List Byte)
  /-- UPD_LOCK (R498). Set the update owner lock. -/
  | updLock
  /-- UPD_UNLOCK (R498). Clear the update owner lock. -/
  | updUnlock
  /-- UPD_BEGIN (R500). Prepare the serial memory slots for an update. -/
  | updBegin
  /-- UPD_WRITE (R500). Program bytes of the new slot into CURRENT. -/
  | updWrite
  /-- UPD_INSTALL (R501). Check and install the new image in one Triad channel. -/
  | updInstall
  /-- UPD_CONFIRM (R506). End the update. -/
  | updConfirm
  /-- UPD_ROLLBACK (R507). Return to the previous image. -/
  | updRollback
  /-- UPD_STATUS (R498). Return the update phase and state. -/
  | updStatus
  /-- FLASH_OPERATION_DONE (R500). A pending serial-memory erase, copy or program completes. -/
  | flashOperationDone (ok : Bool)
  /-- SETTINGS_IMPORT (R502). Channel u reads and converts the settings and imports the state export. -/
  | settingsImport (outcome : Fin 6) (converted : List Byte)
  /-- HANDOVER_CHECK (R503). The import has caught up and the refusals are checked every 1 ms for up to 10 s. -/
  | handoverCheck
  /-- HANDOVER (R503). The pair stalls, channel u's state is copied and TRIPLEX resumes on the new image. -/
  | handover (agree : Bool)
  /-- HANDBACK (R502). The old Triad image is reloaded into channel u and CURRENT invalidated. -/
  | handback (ok : Bool)
  /-- TILE_CORE_RELOAD (R505). A tile core is stopped and reloaded from CURRENT. -/
  | tileCoreReload (t : Fin 8) (b : Fin 2) (ok : Bool)
  /-- TIME_ENGINE_RELOAD (R505). The time engine is reloaded in holdover. -/
  | timeEngineReload (ok : Bool)
  /-- RAIL_SAMPLE (R533). Every 10 µs each rail is sampled against its margin band. -/
  | railSample (mv : List (BitVec 12))
  /-- TEMPERATURE_SAMPLE (R533). Every 1 ms the sensors are read and alarms or a trip follow. -/
  | temperatureSample (temps : List (BitVec 11))
  /-- TRIP_RELEASE (R533). A write of trip_release ends a trip and restarts the domains. -/
  | tripRelease (src : Source)
  /-- VCORE_TARGET_STEP (R527). A side's VCORE target moves by 5 mV. -/
  | vcoreTargetStep (side : Fin 2) (target : BitVec 10)
  /-- ILLEGAL_INSTRUCTION (R112). A Krenus-C engine fetches an undefined encoding, an unassigned major or minor, or the words 0x0000_0000 or 0xFFFF_FFFF, and traps with ILLEGAL_INSTRUCTION. -/
  | illegalInstruction (e : EngineId) (word : BitVec 32)
  /-- WAIT_END (R119). A source becomes pending and enabled while WAIT stops fetching, and with int_enable 0 execution continues after WAIT. -/
  | waitEnd (e : EngineId)
  /-- VAT_FILL_DONE (R278). A cell copy command completes within 64 core clocks, busy clears and refused is set or not. -/
  | vatFillDone
  /-- HDR_EXIT_PATTERN (R450). The HDR Exit Pattern on the I3C bus ends an HDR mode, and the unit clears in_hdr and serves SDR again. -/
  | hdrExitPattern
  /-- TILE_PLL_LOCK (R389). A tile's transmit PLL gains lock and its lanes may leave DISABLED. -/
  | tilePllLock (t : Fin 8)
  /-- REST_MARKER_RECEIVE (R383). A receiver sees a marker with the rest flag set or clear, and its direction starts or ends resting. -/
  | restMarkerReceive (n : LaneId) (refresh : Bool)
  /-- LPI_RX_CHANGE (R401). The partner starts or stops signalling low-power idle, and lpi_rx follows it while the FEC keeps lock. -/
  | lpiRxChange (port : LaneId) (lpi : Bool)
  /-- VAON_UP (R528). VAON comes within tolerance at power-on: PD00 runs, the ledger is cleared and Hot-Join is enabled. -/
  | vaonUp
  /-- VAON_DOWN (R529). VAON falls: PD00 stops, FAULT_N goes to high impedance, and all state, the ledger included, is lost. -/
  | vaonDown
deriving DecidableEq, Repr

end Sys2Proof
end

