-- ==== Sys2Proof/Decode.lean ====
section
/-!
DEFINITION. The table gives its rows no bits, so no word spells a command (`decodeTableWord`). The words of the
Krenus-C instructions, which the rows ADD to AUDIT_RUN execute, are given by R110 to R140 all the same: their
encoder, and the decoder that says which words are illegal (R111, R112).
-/
namespace Sys2Proof

/-- The command a word spells by the table's bits: none, the table gives none (notes/assumptions 4). -/
def decodeTableWord (_nbits _w : Nat) : Option Instr := none

/-- The field [hi:lo] of a word. -/
def wordField (w : BitVec 32) (hi lo : Nat) : Nat := w.toNat / 2 ^ lo % 2 ^ (hi + 1 - lo)

/-- A REG word (R110). -/
def encReg (minor : Nat) (kd ka kb : KReg) : BitVec 32 :=
  BitVec.ofNat 32 (0x01 * 2 ^ 26 + kd.val * 2 ^ 21 + ka.val * 2 ^ 16 + kb.val * 2 ^ 11 + minor)

/-- An IMM or MEM word (R110). -/
def encImm (major : Nat) (kd ka : KReg) (imm : BitVec 16) : BitVec 32 :=
  BitVec.ofNat 32 (major * 2 ^ 26 + kd.val * 2 ^ 21 + ka.val * 2 ^ 16 + imm.toNat)

/-- A BRANCH word (R110). -/
def encBranch (major : Nat) (ka kb : KReg) (off : BitVec 16) : BitVec 32 :=
  BitVec.ofNat 32 (major * 2 ^ 26 + ka.val * 2 ^ 21 + kb.val * 2 ^ 16 + off.toNat)

/-- A JUMP word (R110). -/
def encJump (off : BitVec 26) : BitVec 32 := BitVec.ofNat 32 (0x1E * 2 ^ 26 + off.toNat)

/-- An UPPER word (R110). -/
def encUpper (kd : KReg) (imm : BitVec 21) : BitVec 32 :=
  BitVec.ofNat 32 (0x07 * 2 ^ 26 + kd.val * 2 ^ 21 + imm.toNat)

/-- A SYS word (R110). -/
def encSys (minor : Nat) (kd ka : KReg) (sel : BitVec 10) : BitVec 32 :=
  BitVec.ofNat 32 (0x20 * 2 ^ 26 + kd.val * 2 ^ 21 + ka.val * 2 ^ 16 + sel.toNat * 2 ^ 6 + minor)

/-- A DEV word (R110). -/
def encDev (major sub : Nat) (kd ka kb kc : KReg) : BitVec 32 :=
  BitVec.ofNat 32 (major * 2 ^ 26 + kd.val * 2 ^ 21 + ka.val * 2 ^ 16 + kb.val * 2 ^ 11 + kc.val * 2 ^ 6 + sub)

/-- The engine and the word of a command that is a Krenus-C instruction. -/
def encodeKrenus : Instr → Option (EngineId × BitVec 32)
  | .add e kd ka kb => some (e, encReg 0x0 kd ka kb)
  | .sub e kd ka kb => some (e, encReg 0x1 kd ka kb)
  | .and e kd ka kb => some (e, encReg 0x2 kd ka kb)
  | .or e kd ka kb => some (e, encReg 0x3 kd ka kb)
  | .xor e kd ka kb => some (e, encReg 0x4 kd ka kb)
  | .shl e kd ka kb => some (e, encReg 0x5 kd ka kb)
  | .shr e kd ka kb => some (e, encReg 0x6 kd ka kb)
  | .sar e kd ka kb => some (e, encReg 0x7 kd ka kb)
  | .slt e kd ka kb => some (e, encReg 0x8 kd ka kb)
  | .sltu e kd ka kb => some (e, encReg 0x9 kd ka kb)
  | .mul e kd ka kb => some (e, encReg 0xa kd ka kb)
  | .mulhu e kd ka kb => some (e, encReg 0xb kd ka kb)
  | .divu e kd ka kb => some (e, encReg 0xc kd ka kb)
  | .remu e kd ka kb => some (e, encReg 0xd kd ka kb)
  | .div e kd ka kb => some (e, encReg 0xe kd ka kb)
  | .rem e kd ka kb => some (e, encReg 0xf kd ka kb)
  | .popc e kd ka => some (e, encReg 0x10 kd ka 0)
  | .clz e kd ka => some (e, encReg 0x11 kd ka 0)
  | .ctz e kd ka => some (e, encReg 0x12 kd ka 0)
  | .bswap e kd ka => some (e, encReg 0x13 kd ka 0)
  | .crc32c e kd ka kb => some (e, encReg 0x14 kd ka kb)
  | .addi e kd ka imm => some (e, encImm 0x2 kd ka imm)
  | .andi e kd ka imm => some (e, encImm 0x3 kd ka imm)
  | .ori e kd ka imm => some (e, encImm 0x4 kd ka imm)
  | .xori e kd ka imm => some (e, encImm 0x5 kd ka imm)
  | .shi e kd ka imm => some (e, encImm 0x6 kd ka (imm.setWidth 16))
  | .lui e kd imm => some (e, encUpper kd imm)
  | .ldB e kd ka off => some (e, encImm 0x8 kd ka off)
  | .ldH e kd ka off => some (e, encImm 0x9 kd ka off)
  | .ldW e kd ka off => some (e, encImm 0xa kd ka off)
  | .ldD e kd ka off => some (e, encImm 0xb kd ka off)
  | .ldBs e kd ka off => some (e, encImm 0xc kd ka off)
  | .ldHs e kd ka off => some (e, encImm 0xd kd ka off)
  | .ldWs e kd ka off => some (e, encImm 0xe kd ka off)
  | .stB e kd ka off _ => some (e, encImm 0x10 kd ka off)
  | .stH e kd ka off _ => some (e, encImm 0x11 kd ka off)
  | .stW e kd ka off _ => some (e, encImm 0x12 kd ka off)
  | .stD e kd ka off _ => some (e, encImm 0x13 kd ka off)
  | .beq e ka kb off => some (e, encBranch 0x18 ka kb off)
  | .bne e ka kb off => some (e, encBranch 0x19 ka kb off)
  | .blt e ka kb off => some (e, encBranch 0x1a ka kb off)
  | .bge e ka kb off => some (e, encBranch 0x1b ka kb off)
  | .bltu e ka kb off => some (e, encBranch 0x1c ka kb off)
  | .bgeu e ka kb off => some (e, encBranch 0x1d ka kb off)
  | .jal e off => some (e, encJump off)
  | .jalr e kd ka imm => some (e, encImm 0x1f kd ka imm)
  | .csrRd e kd sel => some (e, encSys 0 kd 0 sel)
  | .csrWr e ka sel => some (e, encSys 1 0 ka sel)
  | .trapCall e sel => some (e, encSys 2 0 0 sel)
  | .trapRet e => some (e, encSys 3 0 0 0)
  | .wait e => some (e, encSys 4 0 0 0)
  | .ldc e kd ka off _ => some (e, encImm 0x21 kd ka off)
  | .stc e kd ka off _ => some (e, encImm 0x22 kd ka off)
  | .copy e ka kb kc => some (e, encDev 0x23 0 0 ka kb kc)
  | .tblWr e kd ka kb => some (e, encDev 0x24 0x0 kd ka kb 0)
  | .tblRd e kd ka kb kc => some (e, encDev 0x24 0x1 kd ka kb kc)
  | .tblIns e kd ka kb => some (e, encDev 0x24 0x2 kd ka kb 0)
  | .tblDel e kd ka kb => some (e, encDev 0x24 0x3 kd ka kb 0)
  | .tblFind e kd ka kb kc => some (e, encDev 0x24 0x4 kd ka kb kc)
  | .tblProg e kd ka kb kc => some (e, encDev 0x24 0x5 kd ka kb kc)
  | .rehash e kd ka kb => some (e, encDev 0x25 0x0 kd ka kb 0)
  | .vatAlloc e kd ka => some (e, encDev 0x26 0x0 kd ka 0 0)
  | .vatAllocP e kd ka => some (e, encDev 0x26 0x1 kd ka 0 0)
  | .vatFree e kd ka => some (e, encDev 0x26 0x2 kd ka 0 0)
  | .vatRelease e kd ka => some (e, encDev 0x26 0x3 kd ka 0 0)
  | .vatShare e kd ka kb kc => some (e, encDev 0x26 0x4 kd ka kb kc)
  | .qEnq e kd ka kb => some (e, encDev 0x27 0x0 kd ka kb 0)
  | .qRead e kd ka kb => some (e, encDev 0x27 0x1 kd ka kb 0)
  | .qFlush e kd ka => some (e, encDev 0x27 0x2 kd ka 0 0)
  | .qPin e kd ka => some (e, encDev 0x27 0x3 kd ka 0 0)
  | .qUnpin e kd ka => some (e, encDev 0x27 0x4 kd ka 0 0)
  | .qLock e kd ka => some (e, encDev 0x27 0x5 kd ka 0 0)
  | .qUnlock e kd ka => some (e, encDev 0x27 0x6 kd ka 0 0)
  | .timeRd e kd ka => some (e, encDev 0x28 0x0 kd ka 0 0)
  | .timeRdn e kd => some (e, encDev 0x28 0x1 kd 0 0 0)
  | .timeSet e kd ka => some (e, encDev 0x28 0x2 kd ka 0 0)
  | .timeStep e kd ka => some (e, encDev 0x28 0x3 kd ka 0 0)
  | .timeSlew e kd ka kb => some (e, encDev 0x28 0x4 kd ka kb 0)
  | .timeAt e kd ka kb kc => some (e, encDev 0x28 0x5 kd ka kb kc)
  | .timeCancel e kd ka => some (e, encDev 0x28 0x6 kd ka 0 0)
  | .epochStage e kd => some (e, encDev 0x29 0x0 kd 0 0 0)
  | .epochCommit e kd => some (e, encDev 0x29 0x1 kd 0 0 0)
  | .epochCommitAt e kd ka => some (e, encDev 0x29 0x2 kd ka 0 0)
  | .epochCancel e kd => some (e, encDev 0x29 0x3 kd 0 0 0)
  | .epochStatus e kd => some (e, encDev 0x29 0x4 kd 0 0 0)
  | .ctrFreeze e kd ka => some (e, encDev 0x2a 0x0 kd ka 0 0)
  | .ctrSnap e kd => some (e, encDev 0x2a 0x1 kd 0 0 0)
  | .ctrRd e kd ka => some (e, encDev 0x2a 0x2 kd ka 0 0)
  | .ctrOvf e kd ka => some (e, encDev 0x2a 0x3 kd ka 0 0)
  | .ctrWr e kd ka kb => some (e, encDev 0x2a 0x4 kd ka kb 0)
  | .faultRaise e kd ka => some (e, encDev 0x2b 0x0 kd ka 0 0)
  | .faultDeclare e kd ka => some (e, encDev 0x2b 0x1 kd ka 0 0)
  | .auditRun e kd ka => some (e, encDev 0x2c 0x0 kd ka 0 0)
  | _ => none

/-- An instruction when every field it does not use is 0 (R111). -/
def when (c : Bool) (i : Instr) : Option Instr := if c then some i else none

/-- The arithmetic instructions by minor (R115). -/
def decodeAlu (e : EngineId) (minor : Nat) (kd ka kb : KReg) : Option Instr :=
  match minor with
  | 0 => some (.add e kd ka kb)
  | 1 => some (.sub e kd ka kb)
  | 2 => some (.and e kd ka kb)
  | 3 => some (.or e kd ka kb)
  | 4 => some (.xor e kd ka kb)
  | 5 => some (.shl e kd ka kb)
  | 6 => some (.shr e kd ka kb)
  | 7 => some (.sar e kd ka kb)
  | 8 => some (.slt e kd ka kb)
  | 9 => some (.sltu e kd ka kb)
  | 10 => some (.mul e kd ka kb)
  | 11 => some (.mulhu e kd ka kb)
  | 12 => some (.divu e kd ka kb)
  | 13 => some (.remu e kd ka kb)
  | 14 => some (.div e kd ka kb)
  | 15 => some (.rem e kd ka kb)
  | 16 => when (kb == 0) (.popc e kd ka)
  | 17 => when (kb == 0) (.clz e kd ka)
  | 18 => when (kb == 0) (.ctz e kd ka)
  | 19 => when (kb == 0) (.bswap e kd ka)
  | 20 => some (.crc32c e kd ka kb)
  | _ => none

/-- The SYS instructions by minor (R119). -/
def decodeSys (e : EngineId) (minor : Nat) (kd ka : KReg) (sel : BitVec 10) : Option Instr :=
  match minor with
  | 0 => when (ka == 0) (.csrRd e kd sel)
  | 1 => when (kd == 0) (.csrWr e ka sel)
  | 2 => when (kd == 0 && ka == 0) (.trapCall e sel)
  | 3 => when (kd == 0 && ka == 0 && sel == 0) (.trapRet e)
  | 4 => when (kd == 0 && ka == 0 && sel == 0) (.wait e)
  | _ => none

/-- The DEV instructions by major and sub code (R121 to R140). -/
def decodeDev (e : EngineId) (major sub : Nat) (kd ka kb kc : KReg) : Option Instr :=
  match major, sub with
  | 0x23, 0 => when (kd == 0) (.copy e ka kb kc)
  | 0x24, 0 => when (kc == 0) (.tblWr e kd ka kb)
  | 0x24, 1 => some (.tblRd e kd ka kb kc)
  | 0x24, 2 => when (kc == 0) (.tblIns e kd ka kb)
  | 0x24, 3 => when (kc == 0) (.tblDel e kd ka kb)
  | 0x24, 4 => some (.tblFind e kd ka kb kc)
  | 0x24, 5 => some (.tblProg e kd ka kb kc)
  | 0x25, 0 => when (kc == 0) (.rehash e kd ka kb)
  | 0x26, 0 => when (kb == 0 && kc == 0) (.vatAlloc e kd ka)
  | 0x26, 1 => when (kb == 0 && kc == 0) (.vatAllocP e kd ka)
  | 0x26, 2 => when (kb == 0 && kc == 0) (.vatFree e kd ka)
  | 0x26, 3 => when (kb == 0 && kc == 0) (.vatRelease e kd ka)
  | 0x26, 4 => some (.vatShare e kd ka kb kc)
  | 0x27, 0 => when (kc == 0) (.qEnq e kd ka kb)
  | 0x27, 1 => when (kc == 0) (.qRead e kd ka kb)
  | 0x27, 2 => when (kb == 0 && kc == 0) (.qFlush e kd ka)
  | 0x27, 3 => when (kb == 0 && kc == 0) (.qPin e kd ka)
  | 0x27, 4 => when (kb == 0 && kc == 0) (.qUnpin e kd ka)
  | 0x27, 5 => when (kb == 0 && kc == 0) (.qLock e kd ka)
  | 0x27, 6 => when (kb == 0 && kc == 0) (.qUnlock e kd ka)
  | 0x28, 0 => when (kb == 0 && kc == 0) (.timeRd e kd ka)
  | 0x28, 1 => when (ka == 0 && kb == 0 && kc == 0) (.timeRdn e kd)
  | 0x28, 2 => when (kb == 0 && kc == 0) (.timeSet e kd ka)
  | 0x28, 3 => when (kb == 0 && kc == 0) (.timeStep e kd ka)
  | 0x28, 4 => when (kc == 0) (.timeSlew e kd ka kb)
  | 0x28, 5 => some (.timeAt e kd ka kb kc)
  | 0x28, 6 => when (kb == 0 && kc == 0) (.timeCancel e kd ka)
  | 0x29, 0 => when (ka == 0 && kb == 0 && kc == 0) (.epochStage e kd)
  | 0x29, 1 => when (ka == 0 && kb == 0 && kc == 0) (.epochCommit e kd)
  | 0x29, 2 => when (kb == 0 && kc == 0) (.epochCommitAt e kd ka)
  | 0x29, 3 => when (ka == 0 && kb == 0 && kc == 0) (.epochCancel e kd)
  | 0x29, 4 => when (ka == 0 && kb == 0 && kc == 0) (.epochStatus e kd)
  | 0x2a, 0 => when (kb == 0 && kc == 0) (.ctrFreeze e kd ka)
  | 0x2a, 1 => when (ka == 0 && kb == 0 && kc == 0) (.ctrSnap e kd)
  | 0x2a, 2 => when (kb == 0 && kc == 0) (.ctrRd e kd ka)
  | 0x2a, 3 => when (kb == 0 && kc == 0) (.ctrOvf e kd ka)
  | 0x2a, 4 => when (kc == 0) (.ctrWr e kd ka kb)
  | 0x2b, 0 => when (kb == 0 && kc == 0) (.faultRaise e kd ka)
  | 0x2b, 1 => when (kb == 0 && kc == 0) (.faultDeclare e kd ka)
  | 0x2c, 0 => when (kb == 0 && kc == 0) (.auditRun e kd ka)
  | _, _ => none

/-- The instruction a word is on an engine; none where R111 to R113 make it illegal. -/
def decodeKrenus (e : EngineId) (w : BitVec 32) : Option Instr :=
  let major := wordField w 31 26
  let kd : KReg := Fin.ofNat 32 (wordField w 25 21)
  let ka : KReg := Fin.ofNat 32 (wordField w 20 16)
  let kb : KReg := Fin.ofNat 32 (wordField w 15 11)
  let kc : KReg := Fin.ofNat 32 (wordField w 10 6)
  let low := wordField w 5 0
  let imm : BitVec 16 := BitVec.ofNat 16 (wordField w 15 0)
  match major with
  | 0x01 => if wordField w 10 6 = 0 then decodeAlu e low kd ka kb else none
  | 0x2 => some (.addi e kd ka imm)
  | 0x3 => some (.andi e kd ka imm)
  | 0x4 => some (.ori e kd ka imm)
  | 0x5 => some (.xori e kd ka imm)
  | 0x06 => when (wordField w 15 8 == 0) (.shi e kd ka (imm.setWidth 8))
  | 0x07 => some (.lui e kd (BitVec.ofNat 21 (wordField w 20 0)))
  | 0x8 => some (.ldB e kd ka imm)
  | 0x9 => some (.ldH e kd ka imm)
  | 0xa => some (.ldW e kd ka imm)
  | 0xb => some (.ldD e kd ka imm)
  | 0xc => some (.ldBs e kd ka imm)
  | 0xd => some (.ldHs e kd ka imm)
  | 0xe => some (.ldWs e kd ka imm)
  | 0x10 => some (.stB e kd ka imm .agree)
  | 0x11 => some (.stH e kd ka imm .agree)
  | 0x12 => some (.stW e kd ka imm .agree)
  | 0x13 => some (.stD e kd ka imm .agree)
  | 0x18 => some (.beq e kd ka imm)
  | 0x19 => some (.bne e kd ka imm)
  | 0x1a => some (.blt e kd ka imm)
  | 0x1b => some (.bge e kd ka imm)
  | 0x1c => some (.bltu e kd ka imm)
  | 0x1d => some (.bgeu e kd ka imm)
  | 0x1E => some (.jal e (BitVec.ofNat 26 (wordField w 25 0)))
  | 0x1F => some (.jalr e kd ka imm)
  | 0x20 => decodeSys e low kd ka (BitVec.ofNat 10 (wordField w 15 6))
  | 0x21 => some (.ldc e kd ka imm .agree)
  | 0x22 => some (.stc e kd ka imm .agree)
  | _ => if 0x23 ≤ major ∧ major ≤ 0x2C then decodeDev e major low kd ka kb kc else none

end Sys2Proof
end

