-- ==== Sys2Proof/Machine/SMap.lean ====
section
/-!
DEFINITION. The operations on sparse arrays and on byte memories: one read and one write each, both keeping the
canonical form (keys strictly rising, no entry equal to what an unlisted key reads as), and wider little-endian
accesses built on them in one place (R9).
-/
namespace Sys2Proof.Machine

/-- The value at key `k`; `d` where none is listed. -/
def mget {α : Type} (d : α) : SMap α → Nat → α
  | [], _ => d
  | (j, v) :: m, k => if j = k then v else mget d m k

/-- The array with key `k` unlisted. -/
def mdel {α : Type} : SMap α → Nat → SMap α
  | [], _ => []
  | (j, v) :: m, k => if j = k then mdel m k else (j, v) :: mdel m k

/-- The array with `v` listed at key `k`. -/
def mput {α : Type} : SMap α → Nat → α → SMap α
  | [], k, v => [(k, v)]
  | (j, w) :: m, k, v =>
    if j = k then (k, v) :: m else if k < j then (k, v) :: (j, w) :: m else (j, w) :: mput m k v

/-- The array with `v` at key `k`, in canonical form for the default `d`. -/
def mset {α : Type} [DecidableEq α] (d : α) (m : SMap α) (k : Nat) (v : α) : SMap α :=
  if v = d then mdel m k else mput m k v

/-- Whether key `k` is listed. -/
def mhas {α : Type} : SMap α → Nat → Bool
  | [], _ => false
  | (j, _) :: m, k => if j = k then true else mhas m k

/-- Every key is at least `lo` and keys rise strictly. -/
def mrising {α : Type} : Nat → SMap α → Bool
  | _, [] => true
  | lo, (j, _) :: m => decide (lo ≤ j) && mrising (j + 1) m

/-- No listed value is the default. -/
def mnoDefault {α : Type} [DecidableEq α] (d : α) : SMap α → Bool
  | [] => true
  | (_, v) :: m => !decide (v = d) && mnoDefault d m

/-- The canonical form of a sparse array. -/
def mwf {α : Type} [DecidableEq α] (d : α) (m : SMap α) : Bool :=
  mrising 0 m && mnoDefault d m

/-! ## Byte memories -/

/-- A byte memory in canonical form; a byte nothing has written reads as 0 (notes/assumptions 3). -/
abbrev Memory := List Host.Cell

/-- What an unlisted byte reads as. -/
def memDefault : Byte := 0

/-- The canonical form: addresses strictly rising, no entry equal to what an unlisted address reads as. -/
def Memory.wf (m : Memory) : Bool := mwf memDefault m

/-- One byte. -/
def memByte (m : Memory) (a : Nat) : Byte := mget memDefault m a

/-- Write one byte. -/
def memSet (m : Memory) (a : Nat) (b : Byte) : Memory := mset memDefault m a b

/-- `n` bytes from address `a`. -/
def memRead (m : Memory) (a : Nat) : Nat → List Byte
  | 0 => []
  | n + 1 => memByte m a :: memRead m (a + 1) n

/-- Write bytes from address `a`. -/
def memWrite (m : Memory) (a : Nat) : List Byte → Memory
  | [] => m
  | b :: bs => memWrite (memSet m a b) (a + 1) bs

/-- The number whose little-endian bytes these are (R9). -/
def leNat : List Byte → Nat
  | [] => 0
  | b :: bs => b.toNat + 256 * leNat bs

/-- The number whose big-endian bytes these are (R8). -/
def beNat (bs : List Byte) : Nat := bs.foldl (fun a b => a * 256 + b.toNat) 0

/-- `n` little-endian bytes of a number. -/
def leBytes : Nat → Nat → List Byte
  | 0, _ => []
  | n + 1, v => BitVec.ofNat 8 v :: leBytes n (v / 256)

/-- `n` big-endian bytes of a number. -/
def beBytes (n v : Nat) : List Byte := (leBytes n v).reverse

/-- The byte at index `i`; 0 beyond the end. -/
def byteAt (bs : List Byte) (i : Nat) : Byte := bs.getD i 0

/-- `n` bytes from index `i`, 0 beyond the end. -/
def bytesAt (bs : List Byte) (i n : Nat) : List Byte :=
  (bs.drop i).take n ++ List.replicate (n - ((bs.drop i).take n).length) 0

/-- `bs` with `new` written over it from index `i`; unchanged beyond its end. -/
def overlay (bs : List Byte) (i : Nat) (new : List Byte) : List Byte :=
  bs.take i ++ (new.take (bs.length - i)) ++ bs.drop (i + new.length)

/-- `v` in the low `w` bits, or all ones where it is too large (R446), shifted to bit `lo`. -/
def satField (lo w v : Nat) : Nat := (if v < 2 ^ w then v else 2 ^ w - 1) * 2 ^ lo

/-- A signed number as `w`-bit two's complement. -/
def twos (w : Nat) (v : Int) : Nat := (v % (2 ^ w : Int)).toNat

/-- The signed number of a `w`-bit two's complement field. -/
def signed (w v : Nat) : Int := if v < 2 ^ (w - 1) then (v : Int) else (v : Int) - 2 ^ w

/-- Whether bit `i` of a number is 1. -/
def bitOf (v i : Nat) : Bool := v / 2 ^ i % 2 == 1

/-- A number with field [hi:lo] replaced. -/
def setField (v hi lo f : Nat) : Nat :=
  v - fieldOf' v hi lo * 2 ^ lo + f % 2 ^ (hi + 1 - lo) * 2 ^ lo
where fieldOf' (v hi lo : Nat) : Nat := v / 2 ^ lo % 2 ^ (hi + 1 - lo)

/-- A Bool as a number. -/
def b2n (b : Bool) : Nat := if b then 1 else 0

/-! ## CRC-32C (R544) -/

/-- One bit step of the reflected register with the reflected polynomial 0x82F63B78. -/
def crcBit (r : Nat) : Nat := if r % 2 = 1 then (r / 2) ^^^ 0x82F63B78 else r / 2

/-- One byte enters, least significant bit first. -/
def crcByte (r : Nat) (b : Byte) : Nat :=
  crcBit (crcBit (crcBit (crcBit (crcBit (crcBit (crcBit (crcBit (r ^^^ b.toNat))))))))

/-- CRC-32C of bytes continued from the value `v` (R544). -/
def crc32c (v : Nat) (bs : List Byte) : Nat :=
  (bs.foldl crcByte (v ^^^ 0xFFFFFFFF)) ^^^ 0xFFFFFFFF

end Sys2Proof.Machine
end

