-- ==== Sys2Proof/Machine/Flags.lean ====
section
/-!
DEFINITION. The computed results of Krenus-C arithmetic (R115). Krenus-C has no flags: a comparison writes 0 or 1
to a register.
-/
namespace Sys2Proof.Machine

/-- The high 64 bits of the unsigned product. -/
def mulHigh (a b : Word64) : Word64 := BitVec.ofNat 64 (a.toNat * b.toNat / 2 ^ 64)

/-- Unsigned quotient, all ones when the divisor is 0. -/
def divU (a b : Word64) : Word64 := if b = 0 then BitVec.allOnes 64 else a / b

/-- Unsigned remainder, the dividend when the divisor is 0. -/
def remU (a b : Word64) : Word64 := if b = 0 then a else a % b

/-- Signed quotient rounded toward 0; all ones when the divisor is 0; −2⁶³ for −2⁶³ ÷ −1. -/
def divS (a b : Word64) : Word64 := if b = 0 then BitVec.allOnes 64 else a.sdiv b

/-- Signed remainder with the dividend's sign; the dividend when the divisor is 0; 0 for −2⁶³ ÷ −1. -/
def remS (a b : Word64) : Word64 := if b = 0 then a else a.srem b

/-- The number of 1 bits. -/
def popCount (a : Word64) : Word64 := BitVec.ofNat 64 ((List.range 64).filter (fun i => a.getLsbD i)).length

/-- Leading zeros, 64 for 0. -/
def leadZeros (a : Word64) : Word64 := BitVec.ofNat 64 ((List.range 64).takeWhile (fun i => !a.getLsbD (63 - i))).length

/-- Trailing zeros, 64 for 0. -/
def trailZeros (a : Word64) : Word64 := BitVec.ofNat 64 ((List.range 64).takeWhile (fun i => !a.getLsbD i)).length

/-- The bytes in reverse order. -/
def byteSwap (a : Word64) : Word64 := BitVec.ofNat 64 (beNat (leBytes 8 a.toNat))

/-- CRC-32C of b's 8 bytes, little-endian, continued from a[31:0], zero-extended (R115, R544). -/
def crcOf (a b : Word64) : Word64 := BitVec.ofNat 64 (crc32c (a.toNat % 2 ^ 32) (leBytes 8 b.toNat))

end Sys2Proof.Machine
end

