-- ==== Sys2Proof/Config.lean ====
section
/-!
DEFINITION. What an implementation fixes and the spec leaves open: opaque constants with no body, so that no
proof can see a value of theirs. Each is named in a row of notes/assumptions.
-/
namespace Sys2Proof.Config

/-- The n-th free value of a run: a value the spec does not state. `State.freeCtr` numbers the draws. -/
opaque freeValue : Nat → BitVec 64

/-- The fused low word of the provisioned ID, AON_PID_LO (R457: Reset "Fused"). -/
opaque pidLow : BitVec 32

/-- Which bit of KC_REGIONn's limit-and-rights word holds bit k of the region's limit, for k below 64, or right r
(0 read, 1 write, 2 execute) of tier t, at k = 64 + 3 t + r (R68, R75: the layout is not given). A bit of the limit
whose place is 64 or above has none and is 1. -/
opaque regionBit : Nat → Nat

/-- Which of the free buffers of a claim the Vat's find-first-free hands out (R262, R272: the order is not
given): the n-th claim of a run takes the free buffer at this position, modulo their number. -/
opaque pick : Nat → Nat

/-- Which interrupt sources of an engine are pending whose cause the spec does not tie to the unit's state (R142): by
engine and instant. -/
opaque intSource : Nat → Nat → Nat

/-- The error of the core copy of the time at an instant, modulo 81,921 units of 2⁻¹⁶ ns less 40,960: it varies from
read to read within one core clock (R406). -/
opaque coreCopy : Nat → Nat

/-- An upset of stored state: what the parity, ECC and voting rules meet when it is next read. -/
inductive Upset where
  | none
  /-- A byte of an engine's own memory that fails parity (R85). -/
  | localByte (engine addr : Nat)
  /-- A byte of one Triad channel's copy that fails parity (R85, R438). -/
  | coreByte (channel addr : Nat)
  /-- A register of one Triad channel that no longer agrees with the others (R438). -/
  | coreReg (channel : Nat)
  /-- A byte or the link word of a Press cell that fails parity (R269). -/
  | cell (index : Nat)
  /-- A byte of a descriptor that fails parity (R269). -/
  | descriptor (index : Nat)
  /-- A copy of a block of queue states in the Cave that ECC cannot correct (R276, R277). -/
  | queueCopy (block copy : Nat)
  /-- A Cave read that ECC corrects (R276, R279). -/
  | caveCorrected (channel : Nat)
  /-- A table entry, by its key, that fails parity (R250). -/
  | entry (key : Nat)
deriving DecidableEq, Repr, Inhabited

/-- The upset of a core clock, if any, by its instant: where and when radiation and wear strike is not given. -/
opaque upset : Nat → Upset

/-- Whether a lane's checker, fed by its partner, is locked to the selected PRBS, by lane and instant (R387: what the
partner sends is not given). -/
opaque prbsLocked : Nat → Nat → Bool

/-- Bit errors that a lane's locked checker meets in a core clock, by lane and instant (R387). -/
opaque bitErrors : Nat → Nat → Nat

/-- The program that has asked T0 firmware for control traffic, if any, by instant: program identifier less 1, modulo
65,535 (R459: how a program asks is not given). -/
opaque controlListener : Nat → Option Nat

/-- Whether the time-engine firmware serves as grandmaster or parent clock for another unit, by instant (R499). -/
opaque timeServes : Nat → Bool

/-- Cells of a Skov receiver's buffer in each of the six partitions (R329: the sizes are not given). -/
opaque linkCells : Nat → Nat

/-- The master code of an event of a block that R512 gives none: by domain and block. -/
opaque blockMaster : Nat → Nat → Nat

/-- Where an engine's image is placed in its SRAM: 0 Triad, 1 time engine, 2 tile core, 3 the Starter
extension (R101, R480: not given). -/
opaque loadBase : Nat → Nat

/-- Whether T0 firmware finds room for an image of a tier and a total size in the regions it grants (R102). -/
opaque imagePlaced : Nat → Nat → Bool

/-- Where in Triad SRAM T0 firmware places the n-th program it starts, by that number and the size (R102). -/
opaque imageBase : Nat → Nat → Nat

/-- The register pair of KC_REGION in which T0 firmware grants the n-th program its region, modulo 16 (R102). -/
opaque imageRegion : Nat → Nat

/-- Whether an ECDSA signature over a message passes with the key in the Starter region and the fuses (R496: the
key's place and the fused hash are not given): of the Starter region, the message and the signature. -/
opaque signatureOk : List Byte → List Byte → List Byte → Bool

end Sys2Proof.Config
end

