-- ==== Sys2Proof/Machine/Codes.lean ====
section
/-!
DEFINITION. The event codes of R445 and the Whey reasons of R447, under their own names.
-/
namespace Sys2Proof.Machine

/-! ## Event codes (R445) -/
/-- CTRL_UNMAPPED (R445). -/
def Ev.ctrlUnmapped : Nat := 0x0101
/-- CTRL_DOMAIN_OFF (R445). -/
def Ev.ctrlDomainOff : Nat := 0x0102
/-- CTRL_SEQ_GAP (R445). -/
def Ev.ctrlSeqGap : Nat := 0x0103
/-- CTRL_AUTH_FAIL (R445). -/
def Ev.ctrlAuthFail : Nat := 0x0104
/-- CFG_PARITY (R445). -/
def Ev.cfgParity : Nat := 0x0105
/-- PIPE_CFG_RANGE (R445). -/
def Ev.pipeCfgRange : Nat := 0x0106
/-- FRAG_CFG_RANGE (R445). -/
def Ev.fragCfgRange : Nat := 0x0107
/-- TURNER_CFG_RANGE (R445). -/
def Ev.turnerCfgRange : Nat := 0x0108
/-- RMAP_CFG_LOCKED (R445). -/
def Ev.rmapCfgLocked : Nat := 0x0109
/-- VAT_CFG_BUSY (R445). -/
def Ev.vatCfgBusy : Nat := 0x010A
/-- VAT_CFG_RANGE (R445). -/
def Ev.vatCfgRange : Nat := 0x010B
/-- QUEUE_CFG_RANGE (R445). -/
def Ev.queueCfgRange : Nat := 0x010C
/-- FABRIC_CFG_RANGE (R445). -/
def Ev.fabricCfgRange : Nat := 0x010D
/-- LANE_CFG_RANGE (R445). -/
def Ev.laneCfgRange : Nat := 0x010E
/-- MAC_CFG_RANGE (R445). -/
def Ev.macCfgRange : Nat := 0x010F
/-- TIME_CFG_RANGE (R445). -/
def Ev.timeCfgRange : Nat := 0x0110
/-- CTR_BAD_INDEX (R445). -/
def Ev.ctrBadIndex : Nat := 0x0111
/-- CFG_RANGE (R445). -/
def Ev.cfgRange : Nat := 0x0112
/-- PROG_REJECTED (R445). -/
def Ev.progRejected : Nat := 0x0201
/-- IMAGE_REJECTED (R445). -/
def Ev.imageRejected : Nat := 0x0202
/-- PROFILE_REJECTED (R445). -/
def Ev.profileRejected : Nat := 0x0203
/-- TRIAD_DOUBLE_FAULT (R445). -/
def Ev.triadDoubleFault : Nat := 0x0204
/-- TIME_CORE_HALT (R445). -/
def Ev.timeCoreHalt : Nat := 0x0205
/-- TILE_CORE_HALT (R445). -/
def Ev.tileCoreHalt : Nat := 0x0206
/-- STARTER_HALT (R445). -/
def Ev.starterHalt : Nat := 0x0207
/-- TRIAD_ISOLATED (R445). -/
def Ev.triadIsolated : Nat := 0x0208
/-- TRIAD_RESYNCED (R445). -/
def Ev.triadResynced : Nat := 0x0209
/-- TRIAD_CHANNEL_RETIRED (R445). -/
def Ev.triadChannelRetired : Nat := 0x020A
/-- TRIAD_HALT (R445). -/
def Ev.triadHalt : Nat := 0x020B
/-- HEADLESS_STOP (R445). -/
def Ev.headlessStop : Nat := 0x020C
/-- EPOCH_STAGE_OPEN (R445). -/
def Ev.epochStageOpen : Nat := 0x020D
/-- EPOCH_COMMITTED (R445). -/
def Ev.epochCommitted : Nat := 0x020E
/-- TABLE_REPAIRED (R445). -/
def Ev.tableRepaired : Nat := 0x0301
/-- TABLE_LOST (R445). -/
def Ev.tableLost : Nat := 0x0302
/-- TABLE_REPAIR_OVERFLOW (R445). -/
def Ev.tableRepairOverflow : Nat := 0x0303
/-- TREE_WALK_ERROR (R445). -/
def Ev.treeWalkError : Nat := 0x0304
/-- REHASH_NEEDED (R445). -/
def Ev.rehashNeeded : Nat := 0x0305
/-- REHASH_DONE (R445). -/
def Ev.rehashDone : Nat := 0x0306
/-- L2_FLUSH_DONE (R445). -/
def Ev.l2FlushDone : Nat := 0x0307
/-- L2_FLUSH_BUSY (R445). -/
def Ev.l2FlushBusy : Nat := 0x0308
/-- FREE_BY_NONOWNER (R445). -/
def Ev.freeByNonowner : Nat := 0x0401
/-- VAT_NOT_HELD (R445). -/
def Ev.vatNotHeld : Nat := 0x0402
/-- DESC_INVALID (R445). -/
def Ev.descInvalid : Nat := 0x0403
/-- VAT_REPAIRED (R445). -/
def Ev.vatRepaired : Nat := 0x0404
/-- SCRAPER_DONE (R445). -/
def Ev.scraperDone : Nat := 0x0405
/-- PIPE_FAULTED (R445). -/
def Ev.pipeFaulted : Nat := 0x0406
/-- PIPE_RESTORED (R445). -/
def Ev.pipeRestored : Nat := 0x0407
/-- QUEUE_FLUSHED (R445). -/
def Ev.queueFlushed : Nat := 0x0408
/-- QUEUE_STATE_LOST (R445). -/
def Ev.queueStateLost : Nat := 0x0409
/-- CAVE_PAGE_RETIRED (R445). -/
def Ev.cavePageRetired : Nat := 0x040A
/-- CAVE_CHANNEL_DOWN (R445). -/
def Ev.caveChannelDown : Nat := 0x040B
/-- LINK_UP (R445). -/
def Ev.linkUp : Nat := 0x0501
/-- LINK_DOWN (R445). -/
def Ev.linkDown : Nat := 0x0502
/-- SKOV_SLOT_CONFLICT (R445). -/
def Ev.skovSlotConflict : Nat := 0x0503
/-- SKOV_FOREIGN_PEER (R445). -/
def Ev.skovForeignPeer : Nat := 0x0504
/-- ROUTE_WITHDRAWN (R445). -/
def Ev.routeWithdrawn : Nat := 0x0505
/-- ROLL_JOINED (R445). -/
def Ev.rollJoined : Nat := 0x0506
/-- ROLL_REFUSED (R445). -/
def Ev.rollRefused : Nat := 0x0507
/-- UNIT_LOST_DECLARED (R445). -/
def Ev.unitLostDeclared : Nat := 0x0508
/-- SYSTEM_EPOCH_SKEW (R445). -/
def Ev.systemEpochSkew : Nat := 0x0509
/-- LINK_NO_PARTNER (R445). -/
def Ev.linkNoPartner : Nat := 0x0601
/-- LINK_TRAIN_FAIL (R445). -/
def Ev.linkTrainFail : Nat := 0x0602
/-- LANE_EYE_LOW (R445). -/
def Ev.laneEyeLow : Nat := 0x0603
/-- LANE_REF_MISMATCH (R445). -/
def Ev.laneRefMismatch : Nat := 0x0604
/-- LANE_CFG_CONFLICT (R445). -/
def Ev.laneCfgConflict : Nat := 0x0605
/-- LANE_SKEW_EXCEEDED (R445). -/
def Ev.laneSkewExceeded : Nat := 0x0606
/-- LANE_TEST_ACTIVE (R445). -/
def Ev.laneTestActive : Nat := 0x0607
/-- PORT_LANE_CONFLICT (R445). -/
def Ev.portLaneConflict : Nat := 0x0608
/-- TIME_JUMP_REFUSED (R445). -/
def Ev.timeJumpRefused : Nat := 0x0701
/-- TIME_SLEW_DONE (R445). -/
def Ev.timeSlewDone : Nat := 0x0702
/-- REF_VOTED_OUT (R445). -/
def Ev.refVotedOut : Nat := 0x0703
/-- REF_VOTED_IN (R445). -/
def Ev.refVotedIn : Nat := 0x0704
/-- REF_NO_MAJORITY (R445). -/
def Ev.refNoMajority : Nat := 0x0705
/-- RCLK_SQUELCH (R445). -/
def Ev.rclkSquelch : Nat := 0x0706
/-- TS_RECORD_LOST (R445). -/
def Ev.tsRecordLost : Nat := 0x0707
/-- MOULD_APPLIED (R445). -/
def Ev.mouldApplied : Nat := 0x0801
/-- MOULD_INVALID (R445). -/
def Ev.mouldInvalid : Nat := 0x0802
/-- IMAGE_SIGNATURE_FAIL (R445). -/
def Ev.imageSignatureFail : Nat := 0x0803
/-- UPDATE_STARTED (R445). -/
def Ev.updateStarted : Nat := 0x0804
/-- UPDATE_REFUSED (R445). -/
def Ev.updateRefused : Nat := 0x0805
/-- UPDATE_SETTINGS_UNREADABLE (R445). -/
def Ev.updateSettingsUnreadable : Nat := 0x0806
/-- UPDATE_HANDBACK_FAILED (R445). -/
def Ev.updateHandbackFailed : Nat := 0x0807
/-- UPDATE_CONFIRMED (R445). -/
def Ev.updateConfirmed : Nat := 0x0808
/-- SUPPLY_MARGIN_ALARM (R445). -/
def Ev.supplyMarginAlarm : Nat := 0x0809
/-- THERMAL_ALARM (R445). -/
def Ev.thermalAlarm : Nat := 0x080A
/-- AUDIT_DONE (R445). -/
def Ev.auditDone : Nat := 0x0901
/-- AUDIT_FAIL (R445). -/
def Ev.auditFail : Nat := 0x0902
/-- LEDGER_OVERRUN (R445). -/
def Ev.ledgerOverrun : Nat := 0x0903

/-! ## Whey reasons (R447) -/
/-- FRAME_CUT (R447). -/
def Wh.frameCut : Nat := 0x0001
/-- FEC_UNCORRECTABLE (R447). -/
def Wh.fecUncorrectable : Nat := 0x0002
/-- CODING_ERROR (R447). -/
def Wh.codingError : Nat := 0x0003
/-- OVERSIZE (R447). -/
def Wh.oversize : Nat := 0x0004
/-- UNDERSIZE (R447). -/
def Wh.undersize : Nat := 0x0005
/-- FCS_ERROR (R447). -/
def Wh.fcsError : Nat := 0x0006
/-- MAC_CONTROL (R447). -/
def Wh.macControl : Nat := 0x0007
/-- RX_FIFO_OVERRUN (R447). -/
def Wh.rxFifoOverrun : Nat := 0x0008
/-- PIPE_BACKLOG (R447). -/
def Wh.pipeBacklog : Nat := 0x0010
/-- NO_RESULT (R447). -/
def Wh.noResult : Nat := 0x0011
/-- PROGRAM_DROP (R447). -/
def Wh.programDrop : Nat := 0x0012
/-- RESULT_INVALID (R447). -/
def Wh.resultInvalid : Nat := 0x0013
/-- EDIT_RANGE (R447). -/
def Wh.editRange : Nat := 0x0014
/-- RIND_INVALID (R447). -/
def Wh.rindInvalid : Nat := 0x0015
/-- MIRROR_DROP (R447). -/
def Wh.mirrorDrop : Nat := 0x0016
/-- NO_CELL (R447). -/
def Wh.noCell : Nat := 0x0020
/-- NO_DESCRIPTOR (R447). -/
def Wh.noDescriptor : Nat := 0x0021
/-- DESCRIPTOR_INVALID (R447). -/
def Wh.descriptorInvalid : Nat := 0x0022
/-- QUEUE_INVALID (R447). -/
def Wh.queueInvalid : Nat := 0x0023
/-- QUEUE_FULL (R447). -/
def Wh.queueFull : Nat := 0x0024
/-- ENQ_JOURNAL_FULL (R447). -/
def Wh.enqJournalFull : Nat := 0x0025
/-- QUEUE_FLUSH (R447). -/
def Wh.queueFlush : Nat := 0x0026
/-- CAVE_PAGE_LOST (R447). -/
def Wh.cavePageLost : Nat := 0x0027
/-- GATE_OVERSIZE (R447). -/
def Wh.gateOversize : Nat := 0x0028
/-- EPOCH_STALE (R447). -/
def Wh.epochStale : Nat := 0x0029
/-- EPOCH_AHEAD (R447). -/
def Wh.epochAhead : Nat := 0x002A
/-- LINK_LOST (R447). -/
def Wh.linkLost : Nat := 0x0030
/-- REORDER_LOST (R447). -/
def Wh.reorderLost : Nat := 0x0031
/-- REORDER_LATE (R447). -/
def Wh.reorderLate : Nat := 0x0032
/-- REORDER_EVICT (R447). -/
def Wh.reorderEvict : Nat := 0x0033
/-- UNIT_LOST (R447). -/
def Wh.unitLost : Nat := 0x0034
/-- STALE_SOURCE (R447). -/
def Wh.staleSource : Nat := 0x0035
/-- LEASE_LATE (R447). -/
def Wh.leaseLate : Nat := 0x0036
/-- DEST_LOST (R447). -/
def Wh.destLost : Nat := 0x0037
/-- PARITY (R447). -/
def Wh.parity : Nat := 0x0040
/-- PIPE_FAULT (R447). -/
def Wh.pipeFault : Nat := 0x0041
/-- OWNER_FAULT (R447). -/
def Wh.ownerFault : Nat := 0x0042
/-- HEADLESS_STOP (R447). -/
def Wh.headlessStop : Nat := 0x0043

/-- The values that name a Whey reason (R447). -/
def wheyReasons : List Nat :=
  [0x0001, 0x0002, 0x0003, 0x0004, 0x0005, 0x0006, 0x0007, 0x0008, 0x0010, 0x0011, 0x0012, 0x0013, 0x0014, 0x0015, 0x0016, 0x0020] ++
  [0x0021, 0x0022, 0x0023, 0x0024, 0x0025, 0x0026, 0x0027, 0x0028, 0x0029, 0x002A, 0x0030, 0x0031, 0x0032, 0x0033, 0x0034, 0x0035] ++
  [0x0036, 0x0037, 0x0040, 0x0041, 0x0042, 0x0043]

end Sys2Proof.Machine
end

