-- ==== Sys2Proof/Machine/RegMap.lean ====
section
/-!
DEFINITION. The control space: which block and register a control address names (R23 to R30), and for each
register listed in the register maps of the chapters which of its bits are RW, RWL or WO and what it holds at
reset (R12 to R14). A bit in none of the three masks is RO or reserved and is computed in `Machine/RegRead.lean`.
-/
namespace Sys2Proof.Machine

/-- The blocks of the crossing table (R25 to R28) that have registers. -/
inductive Block where
  | aon | i3c | starter | pwrseq | sensor | qspi | ledger | ready
  | triad | ctlport
  | time | refin | tsq
  | xbar | qmgr | vat | wheel | scraper | fabric | reseq | frag | epoch
  | pipe (p : Nat) | treew (p : Nat) | police (p : Nat) | sched (p : Nat) | gate (p : Nat)
  | rslice (n : Nat) | rmap (copy : Bool) | rshuf (d : Nat) | l2b (b : Nat) | turner | nhop (d : Nat)
  | pager | qcache
  | perfctr | flowctr | mirror | whey | portstat
  | cave (c : Nat)
  | tile (t : Nat) | tcore (t : Nat) (b : Nat) | lane (n : Nat) | mac (n : Nat) | skov (n : Nat)
deriving DecidableEq, Repr

/-- One register's stored bits (masks) and its value at reset (R12, R14). -/
structure RegSpec where
  rw : Nat := 0
  rwl : Nat := 0
  wo : Nat := 0
  reset : Nat := 0
deriving DecidableEq, Repr

/-- The mask of bits [hi:lo]. -/
def maskOf (hi lo : Nat) : Nat := 2 ^ (hi + 1) - 2 ^ lo

/-- The field [hi:lo] of a number. -/
def fieldOf (v hi lo : Nat) : Nat := v / 2 ^ lo % 2 ^ (hi + 1 - lo)

/-- The domain field [31:27] of a control address (R23). -/
def addrDomain (a : Nat) : Nat := a / 2 ^ 27 % 32
/-- The block field [26:18] (R23). -/
def addrBlock (a : Nat) : Nat := a / 2 ^ 18 % 512
/-- The register field [17:4] (R23). -/
def addrReg (a : Nat) : Nat := a / 16 % 16384
/-- The alias field [3:0] (R23). -/
def addrAlias (a : Nat) : Nat := a % 16

/-- The block a domain and block index name, when it is one with registers (R25 to R28). -/
def blockAt (d b : Nat) : Option Block :=
  match d with
  | 0 => match b with
    | 0 => some .aon | 1 => some .i3c | 2 => some .starter | 3 => some .pwrseq | 4 => some .sensor
    | 5 => some .qspi | 6 => some .ledger | 7 => some .ready | _ => none
  | 1 => match b with
    | 0 => some .triad | 4 => some .ctlport | _ => none
  | 2 => match b with
    | 0 => some .time | 1 => some .refin | 2 => some .tsq | _ => none
  | 3 => match b with
    | 0 => some .xbar | 1 => some .qmgr | 2 => some .vat | 3 => some .wheel | 4 => some .scraper
    | 5 => some .fabric | 6 => some .reseq | 7 => some .frag | 9 => some .epoch | _ => none
  | 12 => match b with
    | 0 => some .pager | 1 => some .qcache | _ => none
  | 13 => match b with
    | 0 => some .perfctr | 1 => some .flowctr | 2 => some .mirror | 3 => some .whey | 4 => some .portstat
    | _ => none
  | _ =>
    if 4 ≤ d ∧ d ≤ 7 then
      let p := 8 * (d - 4) + b / 64
      match b % 64 with
      | 0 => some (.pipe p) | 2 => some (.treew p) | 3 => some (.police p)
      | 4 => some (.sched p) | 5 => some (.gate p) | _ => none
    else if d = 8 ∨ d = 9 then
      if b < 32 then some (.rslice (32 * (d - 8) + b))
      else match b with
        | 32 => some (.rmap (d == 9)) | 33 => some (.rshuf (d - 8)) | 34 => some (.l2b (d - 8))
        | 35 => if d = 8 then some .turner else none
        | 36 => some (.nhop (d - 8)) | _ => none
    else if 14 ≤ d ∧ d ≤ 21 then
      if b = 0 then some (.cave (d - 14)) else none
    else if 22 ≤ d ∧ d ≤ 29 then
      let t := d - 22
      if b = 0 then some (.tile t)
      else if b = 1 then some (.tcore t 0)
      else if b = 2 then some (.tcore t 1)
      else if 64 ≤ b ∧ b < 128 then some (.lane (64 * t + (b - 64)))
      else if 128 ≤ b ∧ b < 192 then some (.mac (64 * t + (b - 128)))
      else if 192 ≤ b ∧ b < 256 then some (.skov (64 * t + (b - 192)))
      else none
    else none

/-- The domain and block index of a block: the crossing table read the other way (R25 to R30). -/
def blockPlace : Block → Nat × Nat
  | .aon => (0, 0) | .i3c => (0, 1) | .starter => (0, 2) | .pwrseq => (0, 3) | .sensor => (0, 4)
  | .qspi => (0, 5) | .ledger => (0, 6) | .ready => (0, 7)
  | .triad => (1, 0) | .ctlport => (1, 4)
  | .time => (2, 0) | .refin => (2, 1) | .tsq => (2, 2)
  | .xbar => (3, 0) | .qmgr => (3, 1) | .vat => (3, 2) | .wheel => (3, 3) | .scraper => (3, 4)
  | .fabric => (3, 5) | .reseq => (3, 6) | .frag => (3, 7) | .epoch => (3, 9)
  | .pipe p => (4 + p / 8, 64 * (p % 8)) | .treew p => (4 + p / 8, 64 * (p % 8) + 2)
  | .police p => (4 + p / 8, 64 * (p % 8) + 3) | .sched p => (4 + p / 8, 64 * (p % 8) + 4)
  | .gate p => (4 + p / 8, 64 * (p % 8) + 5)
  | .rslice n => (8 + n / 32, n % 32) | .rmap c => (if c then 9 else 8, 32) | .rshuf d => (8 + d, 33)
  | .l2b b => (8 + b, 34) | .turner => (8, 35) | .nhop d => (8 + d, 36)
  | .pager => (12, 0) | .qcache => (12, 1)
  | .perfctr => (13, 0) | .flowctr => (13, 1) | .mirror => (13, 2) | .whey => (13, 3) | .portstat => (13, 4)
  | .cave c => (14 + c, 0)
  | .tile t => (22 + t, 0) | .tcore t b => (22 + t, 1 + b)
  | .lane n => (22 + n / 64, 64 + n % 64) | .mac n => (22 + n / 64, 128 + n % 64)
  | .skov n => (22 + n / 64, 192 + n % 64)

/-- The plain control address of register r of a block (R23). -/
def regAddr (b : Block) (r : Nat) : Nat :=
  (blockPlace b).1 * 2 ^ 27 + (blockPlace b).2 * 2 ^ 18 + r * 16

/-- A register that is read only. -/
def roReg : RegSpec := {}

/-- The registers of each block as the chapters' register maps list them; `none` where R24 calls it unmapped. -/
def regSpec (b : Block) (r : Nat) : Option RegSpec :=
  match b with
  | .aon => if r ≤ 3 then some roReg else none
  | .i3c =>
    if r = 0 then some roReg
    else if r ≤ 12 then some { rw := maskOf 31 0 }
    else match r with
      | 13 => some { rw := maskOf 7 0 }
      | 14 => some { rw := maskOf 3 0 + maskOf 15 8, reset := 0x0A0F }
      | 15 => some roReg | 16 => some roReg | _ => none
  | .starter => match r with
    | 0 => some roReg
    | 1 => some { rw := maskOf 4 0, wo := maskOf 5 5 }
    | 2 => some { rw := maskOf 29 0 }
    | 3 => some { rw := maskOf 31 0 } | 4 => some { rw := maskOf 31 0 }
    | 5 => some roReg | 8 => some roReg
    | 9 => some { rw := maskOf 31 0 } | _ => none
  | .pwrseq => match r with
    | 0 => some { rwl := maskOf 29 0, reset := 0x3FFFFFFF } | 1 => some roReg | 2 => some roReg | _ => none
  | .sensor =>
    if r ≤ 2 then some roReg
    else if r = 3 then some { rw := maskOf 7 0, wo := maskOf 8 8, reset := 0x64 }
    else if r = 4 ∨ (16 ≤ r ∧ r ≤ 33) ∨ (48 ≤ r ∧ r ≤ 56) then some roReg else none
  | .qspi => if r = 0 then some roReg else none
  | .ledger =>
    match r with
    | 0 => some roReg | 1 => some roReg
    | 2 => some { rw := maskOf 31 0 } | 3 => some roReg
    | 4 => some { rw := maskOf 7 0, reset := 0xBF } | 5 => some roReg
    | _ => if 16 ≤ r ∧ r < 48 then (if r % 8 = 0 then some { rw := maskOf 31 0 } else some roReg) else none
  | .ready => if r ≤ 7 then some roReg else if r ≤ 15 then some { rw := maskOf 31 0 } else none
  | .triad => match r with
    | 0 => some roReg
    | 1 => some { rw := maskOf 20 0, reset := 0x0006000A }
    | 2 => some roReg | 3 => some roReg | 4 => some roReg | 5 => some roReg
    | 6 => some { wo := maskOf 2 0 }
    | 8 => some roReg | 9 => some { rw := maskOf 31 0 } | _ => none
  | .ctlport => match r with
    | 0 => some { rw := maskOf 0 0 }
    | 9 => some { wo := maskOf 2 0 }
    | 10 => some { rw := maskOf 5 0 }
    | _ => if 1 ≤ r ∧ r ≤ 8 then some { wo := maskOf 31 0 }
           else if 11 ≤ r ∧ r ≤ 17 then some roReg else none
  | .time => match r with
    | 0 => some { rw := maskOf 31 0, reset := 0x0A190648 }
    | 1 => some { rw := maskOf 29 0, reset := 0x3E8 }
    | 2 => some { rw := maskOf 18 0, reset := 0xC350 }
    | 3 => some roReg
    | 4 => some { rw := maskOf 19 0, reset := 0x64 * 2 }
    | 5 => some { rw := maskOf 15 0 }
    | 8 => some roReg | 9 => some { rw := maskOf 31 0 } | 10 => some roReg
    | _ => if 16 ≤ r ∧ r ≤ 19 then some { rw := maskOf 25 0, reset := 0x550 * 1024 } else none
  | .refin => if 48 ≤ r then none else match r % 16 with
    | 0 => some { rw := maskOf 2 0 } | 1 => some { rw := maskOf 23 0 }
    | 2 => some roReg | 3 => some roReg | 4 => some roReg | 5 => some roReg | 6 => some roReg
    | 7 => some { wo := maskOf 0 0 } | _ => none
  | .tsq => if 2048 ≤ r then none else
    let k := r % 64
    if k ≤ 5 then some roReg
    else if k = 6 then some { wo := maskOf 0 0 }
    else if k = 7 then some roReg
    else if 16 ≤ k ∧ k ≤ 31 then some { rw := maskOf 31 0 } else none
  | .xbar => if 32 ≤ r ∧ r < 96 then some { rwl := maskOf 31 0 } else none
  | .qmgr => if r ≤ 2 then some roReg else none
  | .vat => match r with
    | 0 => some { rwl := maskOf 2 0 }
    | 1 => some { rw := maskOf 9 0, reset := 0x80 }
    | 2 => some { rw := maskOf 20 0 }
    | 3 => some { rw := maskOf 20 0, reset := 0x1FFFFF }
    | 4 => some { rw := maskOf 23 0 }
    | 5 => some { rw := maskOf 9 0, wo := maskOf 10 10 }
    | _ =>
      if 8 ≤ r ∧ r ≤ 15 then some roReg
      else if r = 16 ∨ r = 17 then some { rw := maskOf 31 0 }
      else if 18 ≤ r ∧ r ≤ 21 then some { rw := maskOf 31 0, reset := 0x55555555 }
      else if 22 ≤ r ∧ r ≤ 25 then some { rw := maskOf 31 0, reset := 0xAAAAAAAA }
      else if 26 ≤ r ∧ r ≤ 31 then some { rw := maskOf 31 0, reset := 0xFFFFFFFF }
      else if 32 ≤ r ∧ r ≤ 63 then some { rw := maskOf 25 0, reset := if r % 4 = 0 then 16 else 0 }
      else if 64 ≤ r ∧ r ≤ 74 then some roReg else none
  | .wheel => match r with
    | 0 => some { rw := maskOf 14 0, reset := 0x07D0 } | 1 => some roReg | 2 => some roReg | _ => none
  | .scraper => match r with
    | 0 => some roReg | 1 => some roReg | 2 => some { rw := maskOf 7 0, reset := 4 }
    | 3 => some { wo := maskOf 31 0 } | 4 => some roReg | _ => none
  | .fabric => match r with
    | 0 => some { rwl := maskOf 22 0 }
    | 1 => some roReg
    | 2 => some { rw := maskOf 0 0 + maskOf 31 16 }
    | 3 => some { rw := maskOf 10 0 }
    | 4 => some { rwl := maskOf 13 0, reset := 0x1464 }
    | 5 => some { rwl := maskOf 13 0, reset := 0x400 }
    | 6 => some { rwl := maskOf 31 24 }
    | 7 => some roReg | 8 => some roReg
    | 9 => some { rwl := maskOf 31 0 } | 10 => some { rwl := maskOf 31 0 }
    | 11 => some roReg | 12 => some roReg | 13 => some roReg | _ => none
  | .reseq => match r with
    | 0 => some { rwl := maskOf 9 0, reset := 0x28 } | 1 => some roReg | 2 => some roReg | 3 => some roReg
    | _ => none
  | .frag => match r with
    | 0 => some { rwl := maskOf 14 0, reset := 0x7D0 }
    | 1 => some { rwl := maskOf 31 0 }
    | 2 => some roReg | 3 => some roReg | 4 => some roReg | 5 => some roReg | 6 => some roReg | _ => none
  | .epoch => match r with
    | 0 => some roReg
    | 1 => some { rw := maskOf 9 0, reset := 0x32 }
    | 2 => some { wo := maskOf 3 0 }
    | 3 => some roReg
    | 4 => some { rw := maskOf 29 0 }
    | 5 => some { rw := maskOf 31 0 } | 6 => some { rw := maskOf 31 0 } | _ => none
  | .pipe _ =>
    if r = 0 then some { rwl := maskOf 31 0 }
    else if r ≤ 4 then some { rwl := 0x3F3F3F3F }
    else if r = 5 then some { rwl := maskOf 19 0 }
    else if r ≤ 7 then some roReg
    else if 16 ≤ r ∧ r ≤ 31 then some { rwl := maskOf 17 0 } else none
  | .treew _ => if r ≤ 1 then some roReg else none
  | .police _ => if r = 0 then some roReg else none
  | .sched _ =>
    if r ≤ 15 then some { rwl := maskOf 6 0, reset := 0x14 }
    else if r ≤ 31 then some roReg else none
  | .gate _ => if 256 ≤ r then none else match r % 16 with
    | 0 => some { rwl := maskOf 11 0 }
    | 1 => some { rwl := maskOf 29 0, reset := 0x3E8 }
    | 2 => some { rwl := maskOf 29 0 }
    | 3 => some { rwl := maskOf 31 0 } | 4 => some { rwl := maskOf 31 0 }
    | 5 => some roReg | 6 => some roReg | 7 => some roReg | 8 => some roReg | _ => none
  | .rslice _ => if r ≤ 2 then some roReg else none
  | .rmap copy => match r with
    | 0 => some (if copy then roReg else { rw := maskOf 7 0 })
    | 1 => some (if copy then roReg else { rw := maskOf 31 0 })
    | 2 => some roReg | _ => none
  | .rshuf _ => if r ≤ 1 then some roReg else none
  | .l2b b =>
    if r ≤ 2 then some roReg
    else if b ≠ 0 then none
    else if r = 3 then some { rwl := maskOf 1 0 }
    else if r ≤ 19 then some { rwl := maskOf 31 0 }
    else if r = 20 then some { wo := maskOf 31 0 }
    else if r = 21 then some { rw := maskOf 9 0 }
    else if r ≤ 28 then some roReg else none
  | .turner => match r with
    | 0 => some { rwl := maskOf 19 0, reset := 0x12C } | 1 => some roReg | 2 => some roReg | _ => none
  | .nhop _ => if r ≤ 1 then some roReg else none
  | .pager => match r with
    | 0 => some { rw := maskOf 12 0, reset := 0x020A }
    | 1 => some roReg | 2 => some roReg | 3 => some roReg | 4 => some roReg | _ => none
  | .qcache => match r with
    | 0 => some { rw := maskOf 15 0, reset := 0x64 } | 1 => some roReg | 2 => some roReg | _ => none
  | .perfctr =>
    if r < 4096 then match r % 16 with
      | 0 => some { rw := maskOf 11 0 }
      | 1 => some { rw := maskOf 25 0, reset := 0x1FFF }
      | 2 => some { rw := maskOf 31 0 }
      | 3 => some { rw := maskOf 31 0, reset := 0xFFFFFFFF }
      | 4 => some { rw := maskOf 31 0 }
      | 5 => some roReg | 6 => some roReg | 7 => some roReg | 8 => some roReg
      | 9 => some { wo := maskOf 2 2 } | _ => none
    else match r with
      | 4096 => some { rw := maskOf 0 0, wo := maskOf 1 1 }
      | 4097 => some roReg | 4098 => some roReg | 4099 => some roReg
      | 4112 => some { rw := maskOf 19 0 }
      | 4113 => some { rw := maskOf 20 0 }
      | 4114 => some { rw := maskOf 16 0 }
      | 4115 => some { rw := maskOf 31 0 }
      | 4116 => some roReg | 4117 => some roReg | 4118 => some roReg
      | _ => if 4104 ≤ r ∧ r ≤ 4111 then some roReg else none
  | .flowctr => if 32 ≤ r then none else match r % 8 with
    | 0 => some { rw := maskOf 20 0 }
    | 6 => some { wo := maskOf 0 0 } | 7 => none | _ => some roReg
  | .mirror => if r ≤ 64 then some roReg else none
  | .whey => if r ≤ 255 then some roReg else none
  | .portstat => if 512 ≤ r then none
    else if r % 128 = 0 then some { rw := maskOf 9 0 }
    else if 8 ≤ r % 128 ∧ r % 128 ≤ 79 then some roReg else none
  | .cave _ => if r ≤ 5 then some roReg else none
  | .tile _ => match r with
    | 0 => some { rwl := maskOf 0 0 } | 1 => some roReg | _ => none
  | .tcore _ _ => match r with
    | 8 => some roReg | 9 => some { rw := maskOf 31 0 } | _ => none
  | .lane _ => match r with
    | 0 => some { rwl := maskOf 24 0, rw := maskOf 25 25, reset := 0x00051018 }
    | 1 => some { rw := maskOf 13 0, reset := 0x3E8 }
    | 2 => some roReg | 3 => some roReg
    | 4 => some { rw := maskOf 15 0, reset := 0x1328 }
    | 5 => some roReg
    | 6 => some { rwl := maskOf 29 0, reset := 0x00FC0000 }
    | 7 => some roReg
    | 8 => some { rw := maskOf 5 0 }
    | 9 => some roReg | 10 => some roReg | 11 => some roReg | _ => none
  | .mac _ => match r with
    | 0 => some { rwl := maskOf 18 0, reset := 0x2400 }
    | 1 => some { rwl := maskOf 23 0, reset := 0x00FFFFFF }
    | 2 => some { rwl := maskOf 10 0 + maskOf 26 16, reset := 0x02000300 }
    | 3 => some { wo := maskOf 31 0 }
    | 4 => some roReg
    | 5 => some { rwl := maskOf 9 0, reset := 0xA }
    | 6 => some { rw := maskOf 31 0 } | 7 => some { rw := maskOf 15 0 } | _ => none
  | .skov _ => match r with
    | 0 => some { rwl := maskOf 10 0 }
    | 1 => some roReg | 2 => some roReg | 3 => some roReg | 4 => some roReg | 5 => some roReg | 6 => some roReg
    | _ => none

/-- The register a plain, set, clear or toggle address names; `none` is the unmapped access of R24. -/
def regAt (a : Nat) : Option (Block × Nat) :=
  if 30 ≤ addrDomain a then none
  else if addrAlias a % 4 ≠ 0 then none
  else match blockAt (addrDomain a) (addrBlock a) with
    | none => none
    | some b => if (regSpec b (addrReg a)).isSome then some (b, addrReg a) else none

end Sys2Proof.Machine
end

