-- ==== Sys2Proof/Machine/State.lean ====
section
/-!
DEFINITION. The state of the unit, as plain data, and the state after reset. Every structure names the rule of
spec/ that gives the piece of state; the reset values the spec does not give are rows of notes/assumptions.
-/
namespace Sys2Proof.Machine

/-! ## Krenus-C engines (R65 to R88) -/

/-- Whether an engine fetches (R86, R119, R480). -/
inductive RunState where
  /-- Not yet started since reset: no image runs on it. -/
  | held
  | running
  /-- Stopped by WAIT until an enabled source is pending. -/
  | waiting
  /-- Stopped by a double fault (R86) or by the vote (R438). -/
  | halted
deriving DecidableEq, Repr

/-- One Krenus-C engine: its registers and its local memory (R65 to R70). -/
structure Engine where
  /-- k1 to k31; k0 is not listed and reads 0 (R67). -/
  gpr : SMap Word64 := []
  pc : Word64 := 0
  status : Word64 := 0
  cause : Word64 := 0
  epc : Word64 := 0
  tval : Word64 := 0
  tvec : Word64 := 0
  scratch : Word64 := 0
  owner : Word64 := 0
  regionBase : SMap Word64 := []
  regionLimit : SMap Word64 := []
  run : RunState := .held
  /-- The instant, in ps, at which the engine left reset; KC_CYCLE counts from it. -/
  leftReset : Nat := 0
  /-- Local SRAM or ROM and SRAM, by the addresses of R73. -/
  mem : List Host.Cell := []
  /-- Local bytes whose parity fails, in all three copies on the Triad (R85). -/
  badParity : List Nat := []
deriving DecidableEq, Repr

/-! ## The event ledger and the Whey (R442 to R447) -/

/-- One event: its place (domain and block), its code and payload, and when it was raised (R443). -/
structure Event where
  place : Nat × Nat := (0, 0)
  code : Nat := 0
  payload : Nat := 0
  ext : Nat := 0
  holdover : Bool := false
  notSet : Bool := false
  sec : Nat := 0
  ns : Nat := 0
  /-- The management clock in which it was raised. -/
  clock : Nat := 0
  /-- The entry number given when it was written. -/
  seq : Nat := 0
deriving DecidableEq, Repr, Inhabited

/-- The ledger of R442. -/
structure Ledger where
  fifo : List Event := []
  /-- Written entries by ring position (seq mod 4,096). -/
  ring : SMap Event := []
  head : Nat := 0
  dropped : Nat := 0
  /-- Events discarded since the last LEDGER_OVERRUN. -/
  overrun : Nat := 0
  /-- The management clock of the last write, plus one. -/
  written : Nat := 0
deriving DecidableEq, Repr

/-- The discard counters of R444. -/
structure Whey where
  count : SMap Nat := []
  last : Nat := 0
  lastPort : Nat := 0
  /-- The drop_reason recorded with the last PROGRAM_DROP (R167). -/
  programReason : Nat := 0
deriving DecidableEq, Repr

/-! ## Registers and generations (R12, R103, R136, R203, R469, R491) -/

/-- One generation of what changes only through epochs: RWL fields by register key, table entry images by handle. -/
structure Bank where
  rwl : SMap Nat := []
  tbl : SMap Nat := []
deriving DecidableEq, Repr

/-- Where a commit stands (R136, R137, R491). -/
inductive CommitState where
  | none
  /-- EPOCH.COMMIT reached the block; it waits for its effect. -/
  | pending
  /-- EPOCH.COMMIT.AT, at this time of day in units of 2⁻¹⁶ ns. -/
  | scheduled (due : Nat)
  /-- The commit took effect; pipes are cutting over. `wasAt` says the commit was scheduled. -/
  | cutting (wasAt : Bool)
deriving DecidableEq, Repr

/-- The epoch block (R136, R491). -/
structure EpochBlock where
  live : Nat := 0
  shadowOpen : Bool := false
  stagePending : Bool := false
  commit : CommitState := .none
  /-- The epoch each pipe stamps (R59). -/
  pipeEpoch : SMap Nat := []
  /-- The result of the last register-form command: EPOCH_RESULT (R491). -/
  result : Nat := 0
  resultEpoch : Nat := 0
  /-- The instant, in ps, at which the last commit took effect. -/
  effectAt : Nat := 0
deriving DecidableEq, Repr

/-- The stored bits of control space outside the generations, and what surrounds them (R467 to R469). -/
structure RegFile where
  /-- RW bits by register number (address / 16); a register at its Reset value is not listed. -/
  rw : SMap Nat := []
  /-- The high word each source has latched of a 64-bit pair (R444, R468), by source and register number. -/
  latch : SMap Nat := []
  /-- Registers with a parity mismatch, oldest first: the address and the bits that flipped (R432). -/
  parity : List (Nat × Nat) := []
deriving DecidableEq, Repr

/-! ## The Vat, the Press and the Cave (R252 to R279) -/

/-- A buffer's holding record (R258). A cell that is not the first of its chain names the first cell. -/
structure HoldRec where
  /-- last_owner: the name stays when its own hold has ended. -/
  owner : Nat := 0
  holds : Nat := 0
  /-- 0, or one more than the pool 0 index of the chain's first cell, whose record governs this cell. -/
  chain : Nat := 0
  /-- The last owner has ended its own hold, and sharers hold the buffer still (R131). -/
  ended : Bool := false
deriving DecidableEq, Repr, Inhabited

/-- A cell copy command as its go write found it: cell, link word, scratch offset, length, direction, owner (R270). -/
structure FillJob where
  cell : Nat := 0
  next : Nat := 0
  src : Nat := 0
  length : Nat := 0
  toScratch : Bool := false
  owner : Nat := 0
deriving DecidableEq, Repr

/-- The Vat (R252 to R271, R278). -/
structure Vat where
  /-- Holding records by buffer handle (pool in [31:29], index in [28:0]). -/
  held : SMap HoldRec := []
  /-- The hold table: handle, owner, count (R258). -/
  holdTable : List (Nat × Nat × Nat) := []
  empties : SMap Nat := []
  spills : Nat := 0
  declaredDrops : Nat := 0
  /-- Owner names declared faulted, whose holdings are the Scraper's (R271). -/
  declared : List Nat := []
  /-- The cell copy command that runs. -/
  fill : Option FillJob := none
  fillRefused : Bool := false
  /-- Words of a free bitmap under rebuild: pool and word of 64 buffers (R435). -/
  rebuilding : List (Nat × Nat) := []
  /-- Buffers whose holding record failed parity, by handle (R435). -/
  badRecords : List Nat := []
  /-- Buffers that have returned in this core clock, by handle: they count as free from the next one (R266). -/
  returned : List Nat := []
  /-- The bank of each Press half from which the next cell is taken (R272). -/
  nextBank : SMap Nat := []
deriving DecidableEq, Repr

/-- The Press: frame cells, their link words, and the scratch region (R252, R268, R272). -/
structure Press where
  /-- Cell bytes at 256 × pool 0 index + offset. -/
  cells : List Host.Cell := []
  link : SMap Nat := []
  /-- The scratch region by byte offset. -/
  scratch : List Host.Cell := []
  /-- Cells of which a byte or the link word fails parity, by pool 0 index (R268, R269). -/
  bad : List Nat := []
deriving DecidableEq, Repr

/-- The 40-byte Rind of a frame (R170). -/
structure Rind where
  version : Nat := 1
  dropPrec : Nat := 0
  kind : Nat := 0
  sourceUnit : Nat := 0
  incarnation : Nat := 0
  egressSlot : Nat := 0
  queue : Nat := 0
  ingressPort : Nat := 0
  sequence : Nat := 0
  epoch : Nat := 0
  length : Nat := 0
  seconds : Nat := 0
  nanoseconds : Nat := 0
  fraction : Nat := 0
  profile : Nat := 0
  mirrorSession : Nat := 0
  flowHash : Nat := 0
  metadata : Nat := 0
  copyIndex : Nat := 0
deriving DecidableEq, Repr, Inhabited

/-- A pool 7 descriptor (R268). -/
structure Desc where
  rind : Rind := {}
  firstCell : Nat := 0
  cellCount : Nat := 0
  next : Nat := 0x1FFFFF
  holderQueue : Nat := 0
  /-- A byte of the slot fails parity (R268, R269). -/
  bad : Bool := false
  /-- The instant, in ps, at which the frame was enqueued in this unit (R60). -/
  enqueuedAt : Nat := 0
  /-- Its mirror edit record, when it is an edited mirror copy: bytes to send (R523). -/
  edit : Option (List Byte) := none
deriving DecidableEq, Repr, Inhabited

/-- One Cave channel (R273 to R279). -/
structure CaveChan where
  ready : Bool := false
  failed : Bool := false
  corrected : Nat := 0
  uncorrected : Nat := 0
  /-- Pages retired for the power cycle, by page within the channel. -/
  retired : List Nat := []
  /-- The instants of the page transfers of the last 1 ms, newest first (R275). -/
  moves : List Nat := []
deriving DecidableEq, Repr, Inhabited

/-- The Cave: its window's bytes, the page link table, the channel that takes the next page (R273, R274). -/
structure Cave where
  /-- Bytes by offset from 0x0010_0000_0000. -/
  mem : List Host.Cell := []
  chan : SMap CaveChan := []
  /-- The page link table: next_page of each page, by pool 5 index, in the copy of side A and that of side B (R256,
  R273). -/
  pageLinkA : SMap Nat := []
  pageLinkB : SMap Nat := []
  nextChan : Nat := 0
deriving DecidableEq, Repr

/-! ## Time (R404 to R430) -/

/-- A reference channel A, B or C (R409, R429). -/
structure RefChan where
  freqPresent : Bool := false
  ppsPresent : Bool := false
  qualified : Bool := false
  /-- In the voted set. -/
  voted : Bool := false
  /-- Voted out: it returns when it has agreed with the voted set for vote_return_s. -/
  out : Bool := false
  /-- Phase less the count at the last boundary, 2⁻⁸ ns. -/
  phase : Int := 0
  /-- Frequency against the time PLL, 1/16 ppb. -/
  freq : Int := 0
  /-- The phase of the last edge since the last boundary. -/
  edge : Option Int := none
  capNs : Nat := 0
  capFrac : Nat := 0
  unread : Bool := false
  /-- Consecutive seconds in which a voted-out channel agreed with the voted set. -/
  agreed : Nat := 0
  /-- Voted out by AUDIT scope 1 until a later scope 1 pass (R441). -/
  auditOut : Bool := false
deriving DecidableEq, Repr, Inhabited

/-- A correction being slewed out (R134, R413). -/
structure Slew where
  /-- What is left, 2⁻¹⁶ ns. -/
  left : Int := 0
  rate : Nat := 0
  byInstr : Bool := false
  /-- The part of a unit carried from clock to clock, in parts of 10⁹. -/
  carry : Nat := 0
deriving DecidableEq, Repr

/-- A pending TIME.AT action (R134, R427). -/
structure TimedAction where
  due : Nat := 0
  addr : Nat := 0
  val : Nat := 0
deriving DecidableEq, Repr, Inhabited

/-- A transmit record (R419). -/
structure TxRecord where
  identifier : Nat := 0
  port : Nat := 0
  oneStep : Bool := false
  aborted : Bool := false
  holdover : Bool := false
  notSet : Bool := false
  time : Nat := 0
  recSeq : Nat := 0
deriving DecidableEq, Repr, Inhabited

/-- One record queue of a port group (R419 to R421). -/
structure TsQueue where
  recs : List TxRecord := []
  recSeq : Nat := 0
  lost : Nat := 0
deriving DecidableEq, Repr, Inhabited

/-- The states of R412, under their codes. -/
inductive TimeState where
  | free | locked | switchover | holdover
deriving DecidableEq, Repr

/-- The time engine (R404 to R430). -/
structure TimeSt where
  /-- The engine count: seconds, nanoseconds and fraction as one number of 2⁻¹⁶ ns (R404). -/
  count : Nat := 0
  notSet : Bool := true
  state : TimeState := .free
  /-- Second boundaries left in SWITCHOVER. -/
  hold : Nat := 0
  /-- A refusal has been raised since entering HOLDOVER. -/
  refused : Bool := false
  /-- The source changed and the change waits for the next second boundary (R414). -/
  sourceChanged : Bool := false
  ptpLocked : Bool := false
  refs : SMap RefChan := []
  /-- Voted phase less the count at the last boundary, 2⁻⁸ ns. -/
  offset : Int := 0
  slew : Option Slew := none
  /-- The second whose boundary was last evaluated. -/
  lastSecond : Nat := 0
  actions : SMap TimedAction := []
  /-- PPS_OUT, and the count at which it falls (R425). -/
  ppsOut : Bool := false
  ppsFall : Nat := 0
  /-- RCLK_OUT outputs held low (R426). -/
  squelched : List Nat := []
  /-- What each tile's copy of the time differs from the engine count by, in 2⁻¹⁶ ns: at most 50 ps, and constant until
  the tile is powered again (R406). -/
  tileError : SMap Int := []
  tsq : SMap TsQueue := []
deriving DecidableEq, Repr

/-! ## The Triad's vote, AUDIT and the Scraper (R434 to R441) -/

/-- The modes of R438. -/
inductive TriadMode where
  | triplex | resync | duplex | halted
deriving DecidableEq, Repr

/-- The Triad's channels (R437 to R440) and the AUDIT pass (R441). -/
structure TriadSt where
  mode : TriadMode := .triplex
  /-- Bit c: channel c votes. -/
  inVote : Nat := 7
  retired : Nat := 0
  /-- The channel in resync, with the instant the resync began. -/
  resyncing : Option (Nat × Nat) := none
  /-- Isolations of each channel, and the instants of those of the last second. -/
  isolations : SMap Nat := []
  isoTimes : List (Nat × Nat) := []
  /-- The background pass over the SRAM copies of R439 is running. -/
  sramPass : Bool := false
  haltedAt : Nat := 0
  /-- After HEADLESS_STOP until the restart (R440). -/
  headlessStopped : Bool := false
  /-- Lanes whose port or link HEADLESS_STOP stopped and firmware has not enabled again. -/
  stopped : List Nat := []
  /-- The scopes of the AUDIT pass that runs (R140). -/
  audit : Option Nat := none
  /-- Bit c: channel c's registers hold a wrong value, which its next output shows (R85, R437). -/
  dissent : Nat := 0
  /-- Bytes of Triad SRAM that one channel's copy holds with bad parity: channel and address (R85, R439). -/
  coreParity : List (Nat × Nat) := []
  /-- The level FAULT_N had when the resync began: it holds it until the end (R439). -/
  faultHeld : Bool := false
deriving DecidableEq, Repr

/-- What a queue declared faulted held at its declaration: descriptors, pages, and the frames that lie in the pages
(R435). -/
structure TakenQueue where
  descs : List Nat := []
  pages : List Nat := []
  frames : Nat := 0
deriving DecidableEq, Repr, Inhabited

/-- The Scraper (R434, R444). -/
structure ScraperSt where
  /-- Pending declarations, first declared first: owner name and whether firmware declared it. -/
  pending : List (Nat × Bool) := []
  current : Option Nat := none
  /-- The buffers the current recovery has returned so far. -/
  swept : Nat := 0
  /-- The walk of the current recovery is done and SCRAPER_DONE is due. -/
  walked : Bool := false
  returned : Nat := 0
  /-- What the queues declared faulted held, by queue, until the Scraper ends their holds (R435). -/
  taken : SMap TakenQueue := []
deriving DecidableEq, Repr

/-! ## Queues, pager and scheduler (R280 to R318) -/

/-- One queue's state (R285) and what the queue manager and pager know of it. -/
structure QSt where
  /-- The head list, first descriptor first. -/
  head : List Nat := []
  /-- The page list in the Cave, next page to read first, by pool 5 index. -/
  pages : List Nat := []
  /-- The staging list. -/
  tail : List Nat := []
  pageSeq : Nat := 0
  /-- The enqueue instants of the frames whose records begin in the page list and are not all read, in their order
  (R60). -/
  since : List Nat := []
  /-- Bytes of the first staging frame's page record that earlier pages already hold. -/
  partOut : Nat := 0
  /-- Bytes read of a frame whose rest lies in the next page. -/
  partIn : List Byte := []
  /-- The frame under `partIn` was dropped with its page: the rest is skipped. -/
  partBad : Nat := 0
  /-- Frames held, in 64-byte units. -/
  depth : Nat := 0
  deficit : Nat := 0
  /-- Shaper tokens in 10⁻⁶ of 1/256 byte, so that no refill is rounded (R305), and the instant of their last update
  in ps. -/
  tokens : Int := 0
  tokensAt : Nat := 0
  pinned : Bool := false
  locked : Bool := false
  paged : Bool := false
  flushing : Bool := false
  miss : Bool := false
  resident : Bool := false
  dirty : Bool := false
  lastUsed : Nat := 0
  /-- A page of this queue is being read. -/
  reading : Bool := false
  /-- The page under read was asked for by a prefetch (R294). -/
  prefetching : Bool := false
  /-- Frames the flush in progress has dropped. -/
  flushed : Nat := 0
deriving DecidableEq, Repr, Inhabited

/-- The queue manager, cache and pager (R287 to R295). -/
structure QueueMgr where
  states : SMap QSt := []
  /-- The enqueue journal: queue and descriptor, oldest first (R287). -/
  journal : List (Nat × Nat) := []
  /-- The lock table and the pins: queue and owner (R289, R434). -/
  locks : List (Nat × Nat) := []
  pins : List (Nat × Nat) := []
  misses : Nat := 0
  prefetches : Nat := 0
  evictions : Nat := 0
  /-- Queue-state copies lost with a Cave channel: queue block (q ÷ 65,536) and copy 0 or 1 (R277, R286). -/
  copyLost : List (Nat × Nat) := []
  /-- Where a copy lies since its rebuild: by block × 2 + copy, one more than the index of its pool 6 buffer; else it
  lies in the place of R286 (R276, R277). -/
  copyPlace : SMap Nat := []
deriving DecidableEq, Repr

/-- The run state of a bundle (R298, R299, R305). -/
structure BundleRun where
  /-- The position at the DRR pointer, and whether its next visit is new. -/
  drr : Nat := 0
  visited : Bool := false
  /-- The queue whose head is offered. -/
  offer : Option Nat := none
  tagS : Nat := 0
  tagF : Nat := 0
  done : Nat := 0
  /-- One more than the instant at which its last offer was withdrawn: the next is made in a later clock (R298). -/
  withdrawnAt : Nat := 0
  /-- Shaper tokens and the instant of their last update, as a queue's. -/
  tokens : Int := 0
  tokensAt : Nat := 0
deriving DecidableEq, Repr, Inhabited

/-- The run state of an egress port (R299, R301). -/
structure PortRun where
  vtime : Nat := 0
  /-- The transmit budget in 10⁻⁶ of 2⁻¹⁶ byte, and the instant of its last refill. -/
  budget : Int := 0
  budgetAt : Nat := 0
  /-- The instant at which the last selected frame ends on the wire (R301). -/
  wireEnd : Nat := 0
deriving DecidableEq, Repr, Inhabited

/-- A policer's buckets in 10⁻⁹ bit, and one more than their last update in ps; 0 there: the buckets are full
(R310). -/
structure PolicerRun where
  tc : Nat := 0
  tp : Nat := 0
  updated : Nat := 0
deriving DecidableEq, Repr, Inhabited

/-- A gate list as a commit put it in operation (R312, R315). -/
structure GateList where
  /-- gate_states and interval_ns of each entry. -/
  entries : List (Nat × Nat) := []
  cycle : Nat := 0
  /-- The start, in units of 2⁻¹⁶ ns. -/
  start : Nat := 0
deriving DecidableEq, Repr, Inhabited

/-- The gates of one port (R312 to R316). -/
structure GateRun where
  running : Option GateList := none
  pending : Option GateList := none
  /-- The pending change is to gates not enabled. -/
  pendingOff : Bool := false
  entry : Nat := 0
  states : Nat := 0xFFFF
  startTime : Nat := 0
deriving DecidableEq, Repr

/-- The scheduler, the Wheel, the policers and the gates. -/
structure SchedSt where
  bundles : SMap BundleRun := []
  ports : SMap PortRun := []
  /-- The pipe's round-robin pointer over its port slots. -/
  roundRobin : SMap Nat := []
  /-- Shapers waiting on the Wheel: queue q, or 1,048,576 + pipe × 65,536 + node index; with the eligible time in ps. -/
  wheel : SMap Nat := []
  /-- The wheel, 0 to 3, and the slot in which each waits (R306). -/
  wheelAt : SMap (Nat × Nat) := []
  wheelLate : Nat := 0
  policers : SMap PolicerRun := []
  foreign : SMap Nat := []
  gates : SMap GateRun := []
  /-- Flow-control stops: 9 × port for PAUSE, 9 × port + 1 + priority for PFC, with their ends in ps (R317). -/
  stops : SMap Nat := []
deriving DecidableEq, Repr

/-! ## The fabric's identity and streams (R50, R54, R342 to R358) -/

/-- What the unit knows of another unit (R342, R352 to R356). -/
structure PeerUnit where
  /-- Some incarnation of it is held since reset. -/
  known : Bool := false
  incarnation : Nat := 0
  /-- An incarnation is held for it: it was admitted and is not retired. -/
  liveInc : Bool := false
  /-- Declared lost and not admitted again (R353). -/
  lost : Bool := false
  /-- The instant, in ps, of the last cell accepted from it. -/
  heardAt : Nat := 0
  /-- The oldest epoch its beats told (R356). -/
  oldestEpoch : Nat := 0
  beatSeen : Bool := false
deriving DecidableEq, Repr, Inhabited

/-- The unit's place in the system (R345 to R358). -/
structure RollSt where
  unit : Nat := 0
  numbered : Bool := false
  incarnation : Nat := 0
  admitted : Bool := false
  master : Bool := false
  systemLevel : Nat := 0
  /-- The highest incarnation held since power-on (R347). -/
  lastIncarnation : Nat := 0
  peers : SMap PeerUnit := []
  /-- The next sequence number of each of this unit's streams, by queue (R50). -/
  nextSeq : SMap Nat := []
  /-- The plan: provisioned ID and unit number (R345), and the incarnation last given by unit (R347). -/
  plan : List (Nat × Nat) := []
  given : SMap Nat := []
  /-- Units known to be admitted: provisioned ID, unit, MINOR of its firmware (R345, R349). -/
  admittedIds : List (Nat × Nat × Nat) := []
  /-- Join requests passed on for a neighbour: provisioned ID and link (R346). -/
  joins : List (Nat × Nat) := []
  /-- Join requests that wait for the master's decision: instant of arrival, link, request (R346). -/
  requests : List (Nat × Nat × JoinInfo) := []
  /-- The master in view: its provisioned ID and unit. -/
  masterId : Option (Nat × Nat) := none
  /-- The instant since which no beat has shown an older frame (R356). -/
  drainedSince : Option Nat := none
  announcedAt : Nat := 0
  joinAt : Nat := 0
  beatAt : Nat := 0
deriving DecidableEq, Repr

/-! ## Pipes and MACs (R153 to R181, R390 to R403) -/

/-- A frame that the MAC passed to its pipe, as the ingress FIFO holds it (R177, R178). -/
structure RxFrame where
  port : Nat := 0
  bytes : List Byte := []
  /-- The receive time, 2⁻¹⁶ ns (R416). -/
  time : Nat := 0
  arrivedAt : Nat := 0
deriving DecidableEq, Repr, Inhabited

/-- A frame on its way from a pipe, the resequencer or a program to the enqueue decision (R177, R284). -/
structure EnqItem where
  /-- Its pool 7 descriptor, already claimed. -/
  desc : Nat := 0
  /-- The owner whose hold passes to the queue. -/
  owner : Nat := 0
  /-- It is the copy whose queue becomes last owner (R259). -/
  last : Bool := true
  /-- The instant, in ps, from which the enqueue decision sees it (R55). -/
  ready : Nat := 0
deriving DecidableEq, Repr, Inhabited

/-- A frame the scheduler selected, before its egress sequence (R301, R302). -/
structure EgressItem where
  desc : Nat := 0
  queue : Nat := 0
  port : Nat := 0
  selectedAt : Nat := 0
  /-- The head length charged (R297). -/
  charged : Nat := 0
  /-- The bundle charged with it. -/
  bundle : Nat := 0
deriving DecidableEq, Repr, Inhabited

/-- An edited frame at the MAC (R396), without its frame check sequence. -/
structure TxFrame where
  bytes : List Byte := []
  /-- The descriptor whose hold ends when the frame has left; none for generated frames. -/
  desc : Option Nat := none
  /-- The identifier of the transmit record asked for (R175, R419). -/
  record : Option Nat := none
  /-- The one-step field offset, checksum offset and form (R150, R422). -/
  oneStep : Option (Nat × Option Nat × Nat) := none
  /-- The receive time of its Rind, 2⁻¹⁶ ns. -/
  rxTime : Nat := 0
  /-- The earliest instant of its first byte, in ps (R301). -/
  ready : Nat := 0
deriving DecidableEq, Repr, Inhabited

/-- One packet pipe (R153 to R181, R436). -/
structure PipeSt where
  fifo : List RxFrame := []
  egress : List EgressItem := []
  faulted : Bool := false
  /-- Reset is complete and the pipe waits for PIPE_RESTORED (R436). -/
  resetDone : Bool := false
  /-- The declaration was the second within 1 s: the pipe stays faulted until SCRAPER_PIPE_RESTORE. -/
  heldDown : Bool := false
  declaredAt : Option Nat := none
  /-- The instants of the frames of the last 1 ms that its own logic dropped as PARITY. -/
  parityDrops : List Nat := []
  /-- The pipe has paused to load changed roots, from the commit's effect to its cut-over (R193). -/
  paused : Bool := false
  /-- It loads changed roots, paused or not (R193, R195). -/
  loading : Bool := false
  walkErrors : Nat := 0
deriving DecidableEq, Repr, Inhabited

/-- One port's MAC (R394 to R402). -/
structure MacSt where
  up : Bool := false
  xoffSent : Bool := false
  lpiTx : Bool := false
  lpiRx : Bool := false
  queue : List TxFrame := []
  /-- The instant, in ps, at which the frame on the wire ends. -/
  busyUntil : Nat := 0
  /-- A generated flow-control frame that waits to go, with its quanta (R400). -/
  fcWaiting : Option Nat := none
  /-- The instant of the last generated stop. -/
  stopAt : Nat := 0
  /-- The pipe's backlog has passed xoff_kib and has not fallen to xon_kib since (R400). -/
  backlogStop : Bool := false
  idleSince : Nat := 0
  /-- What the frame on the wire has counted, and the number of its transmit record (R393). -/
  wireCounts : List (Nat × Nat) := []
  wireRecord : Option Nat := none
deriving DecidableEq, Repr, Inhabited

/-- The mirror engine (R522, R523). -/
structure MirrorSt where
  /-- Requests since the last copied one, by session. -/
  sample : SMap Nat := []
  drops : SMap Nat := []
  /-- Requests served in the clock of the last one, and its instant (R523). -/
  served : Nat := 0
  servedAt : Nat := 0
deriving DecidableEq, Repr

/-- What leaves the unit: the model's own record, oldest first (notes/assumptions 5). -/
inductive Output where
  /-- A frame on a port: its bytes with the frame check sequence. -/
  | frame (port : Nat) (bytes : List Byte)
  /-- A frame ended with an error control block (R393). -/
  | cut (port : Nat)
  /-- A cell on a Skov link. -/
  | cell (link : Nat) (bytes : List Byte)
  /-- A ROLL or BEAT cell on a Skov link: its 16-byte header and what it says. -/
  | message (link : Nat) (header : List Byte) (msg : FabricMsg)
  /-- Bytes the I3C target sends. -/
  | i3c (bytes : List Byte)
  /-- An in-band interrupt: its mandatory data byte and, where it was acknowledged, its payload. -/
  | ibi (mdb : Nat) (payload : List Byte)
  /-- A Hot-Join request. -/
  | hotJoin
  /-- A frame of a control queue handed to T1 software: the handle of its first cell, and its bytes (R459). -/
  | toSoftware (handle : Nat) (bytes : List Byte)
  /-- A reply of the control port over the fabric, to a port of another unit (R464). -/
  | reply (unit port : Nat) (bytes : List Byte)
  /-- A training frame's content on a lane: 1 the receiver is ready, 2 the answer "at limit" (R368, R376). -/
  | training (lane : Nat) (content : Nat)
  /-- A rest or wake signal of a lane group (R382). -/
  | restSignal (n : Nat) (code : Nat)
deriving DecidableEq, Repr

/-! ## Classification trees and fragments (R182 to R202) -/

/-- An entry of the fragment table (R196 to R201). -/
structure FragEntry where
  key : List Byte := []
  /-- Its decision is not recorded yet. -/
  awaiting : Bool := false
  /-- The recorded tree result, in the layout of R187. -/
  result : Nat := 0
  epoch : Nat := 0
  /-- The instant, in ps, at which its decision is recorded: a read before it finds the entry pending (R197). -/
  visible : Nat := 0
  /-- The instant, in ps, from which its age runs. -/
  since : Nat := 0
deriving DecidableEq, Repr, Inhabited

/-- Tree memory, the walkers' ledger marks, and the fragment table. -/
structure TreeSt where
  /-- Entries of tree memory as little-endian numbers of 64 bytes. -/
  nodes : SMap Nat := []
  /-- Rule sets whose first walk error of the live epoch is in the ledger (R188). -/
  errorRaised : List Nat := []
  /-- Fragment entries by bucket × 16 + way. -/
  frags : SMap FragEntry := []
  /-- The seed in force: FRAG_SEED, or the one drawn at the commit (R202). -/
  seed : Nat := 0
  hits : Nat := 0
  misses : Nat := 0
  full : Nat := 0
  epochMisses : Nat := 0
deriving DecidableEq, Repr

/-! ## Layer-2 and route tables (R206 to R243) -/

/-- What a layer-2 entry holds in one generation (R207). -/
structure L2Data where
  unit : Nat := 0
  port : Nat := 0
  discardDst : Bool := false
  discardSrc : Bool := false
  fixed : Bool := false
deriving DecidableEq, Repr, Inhabited

/-- A layer-2 entry: its key (FID × 2⁴⁸ + address), its contents where bank 0 and bank 1 hold it, and its age. -/
structure L2Entry where
  key : Nat := 0
  c0 : Option L2Data := none
  c1 : Option L2Data := none
  hit : Bool := false
  idle : Nat := 0
  /-- The Turner's sweep of the last visit: its length in ps, and one more than the instant at which it began. -/
  mark : Nat × Nat := (0, 0)
deriving DecidableEq, Repr, Inhabited

/-- The layer-2 table, its learner, rehashes, flush and counters (R206 to R224). -/
structure L2St where
  /-- Entries by bank × 1,048,576 + bucket × 8 + way. -/
  entries : SMap L2Entry := []
  /-- Queued learns: key, unit, port, oldest first. -/
  learns : List (Nat × Nat × Nat) := []
  /-- The seed each bank places under, and the seed before it while a rehash runs or is halted. -/
  seed : SMap Nat := []
  oldSeed : SMap Nat := []
  /-- 1 while a bank rehashes, 2 while it is halted. -/
  rehash : SMap Nat := []
  /-- A flush runs; the entries it removed. -/
  flush : Option Nat := none
  /-- The sweep in progress: the instant at which it began, and its length, half an ageing time, in ps (R217, R219). -/
  sweepFrom : Nat := 0
  sweepHalf : Nat := 150000000000000
  /-- The instant of the last REHASH_NEEDED. -/
  neededAt : Option Nat := none
  removed : Nat := 0
  learned : Nat := 0
  moves : Nat := 0
  evictions : Nat := 0
  blocked : Nat := 0
  drops : Nat := 0
  conflicts : Nat := 0
  rehashDrops : Nat := 0
deriving DecidableEq, Repr

/-- A route in a slice: its key, and its result in bank 0 and bank 1 where it is present there (R225, R234). The
result is nh_ref, discard, to_control and route_tag as bytes 4 to 11 of the image hold them. -/
structure Route where
  vrf : Nat := 0
  v6 : Bool := false
  length : Nat := 0
  /-- The address as a number of 32 or 128 bits. -/
  addr : Nat := 0
  r0 : Option Nat := none
  r1 : Option Nat := none
deriving DecidableEq, Repr, Inhabited

/-- A queued placement: the slice, and the route with its shadow result (R236, R238). -/
structure Placement where
  slice : Nat := 0
  route : Route := {}
deriving DecidableEq, Repr, Inhabited

/-- The route memory and its shufflers (R225 to R243). -/
structure RouteSt where
  /-- The valid rows of each slice in row order, a pair as one route: its key gives the cells, the family, half and pair
  bits and the tag, its results the presence bits and the result slots (R225, R226, R230). -/
  slices : SMap (List Route) := []
  /-- The rows of each group with its pool, by slice × 4 + group, where refills have changed them from 10,240 (R235,
  R239). -/
  caps : SMap Nat := []
  /-- The instant from which each slice can start its next search (R231). -/
  freeAt : SMap Nat := []
  queue0 : List Placement := []
  queue1 : List Placement := []
  /-- Moves of each shuffler. -/
  moves : SMap Nat := []
  /-- Searches of each slice, and searches that it could not serve in its clock (R231, R243). -/
  searches : SMap Nat := []
  overruns : SMap Nat := []
deriving DecidableEq, Repr

/-! ## Power and boot (R458, R470 to R494, R526 to R533) -/

/-- Power domains and what surrounds them. -/
structure PowerSt where
  /-- Bit d: domain PDdd reports on. PD00 runs from VAON (R470). -/
  on : Nat := 1
  /-- The domains the sequencer starts: PWRSEQ_DOMAIN_EN of the settings the Starter has chosen, then as commits
  leave it (R471, R493); none before the choice. -/
  wanted : Nat := 0
  /-- Held off by a thermal trip (R533). -/
  tripHold : Bool := false
deriving DecidableEq, Repr

/-! ## Lanes and tiles (R361 to R389) -/

/-- The states of R376, under their codes. -/
inductive LaneState where
  | disabled | waitSignal | frameLock | exchange | waitPartner | data | up | backoff | test
deriving DecidableEq, Repr

/-- One lane (R361 to R388). -/
structure LaneSt where
  state : LaneState := .disabled
  signal : Bool := false
  cdrLock : Bool := false
  fecLock : Bool := false
  eye : Nat := 0
  /-- Eye figures of the last 100 ms that a later lower one does not hide: instant and figure, oldest first. -/
  eyes : List (Nat × Nat) := []
  eyeLow : Bool := false
  /-- The instant of the last LANE_EYE_LOW, plus one. -/
  lowAt : Nat := 0
  /-- Transmit coefficients in use, and known-good, in the layout of R388. -/
  coef : Nat := 0x00FC0000
  known : Nat := 0x00FC0000
  everUp : Bool := false
  /-- The 24 FFE and 6 DFE taps in 1/512 of their range, and those with which it last reached UP (R369, R378). -/
  taps : SMap Int := []
  knownTaps : SMap Int := []
  /-- The CDR loop gain, which adaptation moves (R369). -/
  loopGain : Nat := 0
  backoffStep : Nat := 0
  backoffUntil : Nat := 0
  /-- The start of the attempt, the last restart of training_timeout, and the timeout in force, in ps. -/
  attemptAt : Nat := 0
  timerAt : Nat := 0
  timeout : Nat := 0
  dataAt : Nat := 0
  partnerReady : Bool := false
  /-- Agreed wake times in us; 0: no rest (R382). -/
  wakeTx : Nat := 0
  wakeRx : Nat := 0
  txRest : Bool := false
  rxRest : Bool := false
  /-- The instants of the last refresh sent and seen, and the end of the wake time in progress (R383, R385). -/
  refreshSent : Nat := 0
  refreshSeen : Nat := 0
  wakeUntil : Nat := 0
  checkerLocked : Bool := false
  prbsErrors : Nat := 0
  fails : Nat := 0
  losses : Nat := 0
deriving DecidableEq, Repr, Inhabited

/-! ## Skov links and the fabric (R319 to R358) -/

/-- A cell to send on a link, before the link layer numbers it (R325, R326). -/
structure TxCell where
  type : Nat := 0
  hops : Nat := 1
  dest : Nat := 0
  source : Nat := 0
  first : Bool := false
  last : Bool := false
  length : Nat := 0
  tag : Nat := 0
  grant : Nat := 0
  valiant : Bool := false
  index : Nat := 0
  payload : List Byte := []
  msg : FabricMsg := .plain
  /-- The link sequence number, once it has one. -/
  seq : Nat := 0
  /-- The link and partition whose credit a relayed cell holds until it is sent on (R329). -/
  owes : Option (Nat × Nat) := none
deriving DecidableEq, Repr, Inhabited

/-- One Skov link (R321 to R334). -/
structure LinkSt where
  up : Bool := false
  dead : Bool := false
  live : Bool := false
  peerUnit : Nat := 0
  peerNumbered : Bool := false
  peerIncarnation : Nat := 0
  peerId : Nat := 0
  peerSystem : Option Nat := none
  /-- The master the peer has in view: its provisioned ID and unit. -/
  peerMaster : Option (Nat × Nat) := none
  /-- The number that a peer of this unit's system last announced on the link (R331). -/
  toward : Option Nat := none
  /-- Whether the peer may be master, and the lowest ID that may be among it and the units beside it (R345, R440). -/
  peerEligible : Bool := false
  peerLowest : Option Nat := none
  txSeq : Nat := 0
  rxSeq : Nat := 0
  /-- Cells waiting to be sent, and sent cells not acknowledged, oldest first. -/
  waiting : List TxCell := []
  replay : List TxCell := []
  /-- Credits held by partition, and credits owed to the peer (R329). -/
  credits : SMap Nat := []
  owed : SMap Nat := []
  /-- Replays in a row that did not advance ack_seq. -/
  stuck : Nat := 0
  replays : Nat := 0
  crcErrors : Nat := 0
  deaths : Nat := 0
  heardAt : Nat := 0
  sentAt : Nat := 0
  /-- The instant at which it last sent a numbered cell. -/
  busyAt : Nat := 0
  /-- Destinations that the peer has withdrawn (R334). -/
  withdrawn : List Nat := []
deriving DecidableEq, Repr, Inhabited

/-- A VOQ's credit at the source (R335 to R338). -/
structure VoqSt where
  /-- The cumulative request count in 4 KiB, modulo 2³². -/
  count : Nat := 0
  /-- Bytes asked for and neither used nor lost. -/
  asked : Nat := 0
  /-- The instant of the last REQUEST, plus one, and the count it carried. -/
  sentAt : Nat := 0
  sentCount : Nat := 0
  /-- Grants in hand: grant_id, instant of receipt, bytes left; oldest first. -/
  grants : List (Nat × Nat × Nat) := []
deriving DecidableEq, Repr, Inhabited

/-- A grant this unit has issued and that has not ended (R336 to R338). -/
structure Grant where
  unit : Nat := 0
  queue : Nat := 0
  id : Nat := 0
  issuedAt : Nat := 0
  left : Nat := 4096
deriving DecidableEq, Repr, Inhabited

/-- A frame in assembly (R340). -/
structure Assembly where
  /-- The instant of its first cell, its grant, and its cells by index. -/
  since : Nat := 0
  grant : Nat := 0
  cells : SMap (List Byte) := []
  last : Option Nat := none
  /-- A cell arrived after the lease of its grant had ended (R338). -/
  late : Bool := false
deriving DecidableEq, Repr, Inhabited

/-- A frame the resequencer holds (R52, R341). -/
structure HeldFrame where
  seq : Nat := 0
  desc : Nat := 0
  arrivedAt : Nat := 0
  /-- The instant at which its hold expires. -/
  due : Nat := 0
deriving DecidableEq, Repr, Inhabited

/-- The fabric engine and the resequencer (R331 to R343). -/
structure FabricSt where
  links : SMap LinkSt := []
  voqs : SMap VoqSt := []
  /-- The next frame_tag toward each destination. -/
  nextTag : SMap Nat := []
  /-- Counts received and granted, by source × 2²⁰ + egress queue (R335). -/
  received : SMap Nat := []
  granted : SMap Nat := []
  /-- The next grant_id of each source, and the grants that have not ended. -/
  nextGrant : SMap Nat := []
  grants : List Grant := []
  /-- The source each egress queue served last. -/
  lastSource : SMap Nat := []
  /-- The pooled reserve of each egress queue: pool 0 cells and pool 7 descriptors (R267). -/
  reserve : SMap (List Nat × List Nat) := []
  /-- Frames in assembly by source × 2²⁴ + frame_tag. -/
  partialFrames : SMap Assembly := []
  /-- Frames in the late store: source, bytes granted so far, Rind and frame bytes (R338). -/
  late : List (Nat × Nat × Rind × List Byte) := []
  /-- The expected sequence and the held frames of each stream, by source × 2²⁰ + egress queue (R341). -/
  expected : SMap Nat := []
  heldFrames : SMap (List HeldFrame) := []
  /-- Destinations this unit has withdrawn as a relay, and those its relay sets reach (R334). -/
  unreachable : List Nat := []
  relayable : List Nat := []
  cellDrops : Nat := 0
  unitsLost : Nat := 0
  systemEpoch : Nat := 0
  /-- The instant of the last SYSTEM_EPOCH_SKEW, plus one. -/
  skewAt : Nat := 0
deriving DecidableEq, Repr

/-! ## Counters (R509 to R525) -/

/-- The performance counters, the snapshot, and the export (R514, R516, R524). -/
structure PerfSt where
  /-- Counters, and their values at the last snapshot. -/
  value : SMap Nat := []
  snap : SMap Nat := []
  /-- Bit n: the overflow bit of counter n, and the bits at the snapshot. -/
  ovf : Nat := 0
  snapOvf : Nat := 0
  /-- The counters, overflow bits and port statistics at the start of this core clock (R63). -/
  startValue : SMap Nat := []
  startOvf : Nat := 0
  startPorts : SMap Nat := []
  /-- The flow counters at the start of this core clock (R519). -/
  startFlows : SMap (Nat × Nat) := []
  /-- What the events of this core clock add to each counter, frozen or not (R515). -/
  clockAdds : SMap Nat := []
  snapping : Bool := false
  snapAt : Nat := 0
  /-- Port statistics at the last snapshot. -/
  ports : SMap Nat := []
  /-- The time of the last snapshot, 2⁻¹⁶ ns. -/
  snapTime : Nat := 0
  /-- The instant from which the next export interval runs. -/
  exportFrom : Nat := 0
  exportSeq : Nat := 0
  exportHandle : Nat := 0
  exportSkipped : Nat := 0
  /-- Dumps not returned yet, by handle. -/
  dumps : List Nat := []
  /-- The captured pair of each FLOWCTR window; none from a FLOW_SEL write to its capture (R519). -/
  windows : SMap (Option (Nat × Nat)) := []
deriving DecidableEq, Repr

/-- An event that performance counters may count (R510 to R513). -/
structure PerfEvent where
  code : Nat
  master : Nat
  cls : Option Nat := none
  tier : Option Nat := none
  addr : Option Nat := none
  amount : Nat := 1
deriving DecidableEq, Repr

/-! ## The I3C target (R450 to R457) -/

/-- A READ_SETUP that no READ has taken. -/
structure ReadSetup where
  addr : Nat := 0
  n : Nat := 0
  /-- The instant, in ps, of its end. -/
  endedAt : Nat := 0
deriving DecidableEq, Repr

/-- The I3C target of R450. -/
structure I3cSt where
  /-- The dynamic address, while one is held. -/
  addr : Option Nat := none
  ibiEnabled : Bool := true
  hjEnabled : Bool := true
  inHdr : Bool := false
  /-- The HDR mode on the bus is one the unit does not support. -/
  ignoring : Bool := false
  mwl : Nat := 69
  mrl : Nat := 65
  /-- The interrupt payload length that SETMRL last gave. -/
  ibiLen : Nat := 5
  setup : Option ReadSetup := none
  /-- The last message was discarded: the next READ returns BAD_MESSAGE. -/
  bad : Bool := false
  errors : Nat := 0
  /-- The instant of the last Hot-Join request, plus one. -/
  hotJoinAt : Nat := 0
  /-- By source: the instant, plus one, of the last request since its condition became true. -/
  ibiAt : SMap Nat := []
deriving DecidableEq, Repr

/-! ## The control port (R459 to R466) -/

/-- A control frame that passed its checks: what a channel holds of it (R460, R463). -/
structure CtlFrame where
  seq : Nat := 0
  slot : Nat := 0
  /-- The operations, or none where the frame is malformed (R462). -/
  ops : Option (List (Nat × List Byte)) := none
  /-- The handle of its first cell, whose hold ends with the frame. -/
  cell : Nat := 0
  /-- Where the reply goes: destination address, VLAN tags, egress unit and port. -/
  replyTo : List Byte := []
  tags : List Byte := []
  unit : Nat := 0
  port : Nat := 0
deriving DecidableEq, Repr, Inhabited

/-- One in-band control channel (R463). -/
structure CtlChan where
  session : Option Nat := none
  /-- Sessions already replaced. -/
  replaced : List Nat := []
  next : Nat := 0
  /-- Held frames, lowest sequence first. -/
  held : List CtlFrame := []
  /-- Replies sent in the session. -/
  replies : Nat := 0
  /-- CTRL_SEQ_GAP has been raised for the gap in hand. -/
  gapRaised : Bool := false
deriving DecidableEq, Repr, Inhabited

/-- A T1 or T2 program that T0 firmware has started: its image, where its text begins, its owner name (R102). -/
structure Program where
  image : List Byte := []
  base : Nat := 0
  owner : Nat := 0
deriving DecidableEq, Repr

/-- The control port (R459 to R466). -/
structure CtlPortSt where
  /-- The key of a slot that is valid: 256 bits. -/
  keys : SMap (Option Nat) := []
  /-- The staging: key words by index. -/
  staging : SMap Nat := []
  chans : SMap CtlChan := []
  fails : Nat := 0
  duplicates : Nat := 0
  stale : Nat := 0
  applied : Nat := 0
  /-- The instant of the last CTRL_AUTH_FAIL, plus one. -/
  failAt : Nat := 0
  /-- The image IMAGE_LOAD is writing: total size, and bytes by offset (R462). -/
  image : Option (Nat × List Byte) := none
  /-- T1 and T2 images that were accepted and started, first started first (R102). -/
  started : List Program := []
  /-- The T1 program that has asked for control traffic, by its owner name (R459). -/
  listener : Option Nat := none
deriving DecidableEq, Repr

/-! ## The serial memory, the Starter and updates (R470 to R508) -/

/-- The serial memory on the QSPI pins (R472): an outside part, whose contents are state. -/
structure FlashSt where
  present : Bool := true
  sizeMib : Nat := 64
  /-- The highest clock its parameter table allows, in MHz. -/
  rateMhz : Nat := 133
  /-- Bytes by offset, each as its complement, so that an erased byte, 0xFF, is not listed. -/
  cells : List Host.Cell := []
deriving DecidableEq, Repr

/-- The phases of STARTER_STATUS, under their codes (R494). -/
inductive StarterPhase where
  | rom | held | loading | applying | running | recovery | mould
deriving DecidableEq, Repr

/-- A slot directory (R496). -/
structure SlotDir where
  settings : Nat := 0
  version : Nat := 0
  abi : Nat := 0
  skovMin : Nat := 0
  skovMax : Nat := 0
  stateExport : Nat := 0
  stateImport : Nat := 0
  /-- Kind, offset, size and crc of each image. -/
  images : List (Nat × Nat × Nat × Nat) := []
deriving DecidableEq, Repr

/-- A memory operation in progress (R477, R500). -/
inductive FlashOp where
  /-- UPD.BEGIN: PREVIOUS is erased and written from CURRENT, where the unit runs from it; CURRENT is erased. -/
  | prepare
  /-- UPD.WRITE of these bytes at the offset. -/
  | program (offset : Nat) (bytes : List Byte)
  /-- A settings set for a half of the Pyke store. -/
  | settings (half : Nat) (bytes : List Byte)
deriving DecidableEq, Repr

/-- The Starter and the boot (R458, R470 to R494). -/
structure BootSt where
  /-- RST_N or PGOOD_IN is low: between power-on or reset and the next boot anchor. -/
  inReset : Bool := true
  /-- PGOOD_IN is high: its rise is taken with the boot anchor. -/
  pgood : Bool := false
  /-- VAON is within tolerance. -/
  vaon : Bool := true
  mode : Nat := 0
  phase : StarterPhase := .rom
  /-- HOLD is in force: the phase at which CONTINUE resumes. -/
  heldAt : Option StarterPhase := none
  /-- RECOVERY in the ROM: only REBOOT is taken (R481). -/
  romOnly : Bool := false
  slot : Nat := 3
  /-- The directory of the slot whose firmware runs. -/
  fw : SlotDir := {}
  /-- The slot being loaded, and those still to try. -/
  trying : Option Nat := none
  toTry : List Nat := []
  selMould : Option Nat := none
  selSlot : Option Nat := none
  mould : Nat := 0
  mouldInvalid : Bool := false
  /-- The mould chosen for this boot, or being applied in service. -/
  chosen : Nat := 0
  half : Nat := 0
  format : Nat := 0
  refused : Nat := 0
  /-- The IMAGE records copied into Triad SRAM, to be started after the boot commit (R482). -/
  images : List (List Byte) := []
  /-- The settings are applied and the boot commit is due. -/
  applied : Bool := false
  /-- The boot commit has taken effect. -/
  committed : Bool := false
  /-- A boot or mould commit is on its way to its effect: whether it is the boot's. -/
  committing : Option Bool := none
  mouldResult : Nat := 0
  /-- A mould application waits for its stage to open: whether it commits at the STARTER_AT time (R492). -/
  mouldWait : Option Bool := none
  found : Bool := false
  /-- STARTER_HALT has been raised since reset (R458). -/
  halted : Bool := false
deriving DecidableEq, Repr

/-- The phases of R498, under their codes. -/
inductive UpdPhase where
  | idle | prepared | shadow | handover | tiles | time | awaitConfirm | handback
deriving DecidableEq, Repr

/-- The update services (R498 to R507). -/
structure UpdSt where
  phase : UpdPhase := .idle
  lock : Option Nat := none
  op : Option FlashOp := none
  reason : Nat := 0
  /-- Bytes written to CURRENT since UPD.BEGIN. -/
  written : Nat := 0
  /-- The first 4 bytes of the directory, which are programmed last. -/
  magic : List Byte := []
  /-- A write or a read-back of the memory failed since UPD.BEGIN. -/
  flashFailed : Bool := false
  /-- Channel u. -/
  chan : Option Nat := none
  /-- Channel u has imported the state. -/
  imported : Bool := false
  /-- The instant of the first check of R503, plus one. -/
  checkAt : Nat := 0
  /-- The next tile core to reload. -/
  nextCore : Nat := 0
  /-- A core's first load failed its check. -/
  coreFailed : Bool := false
  /-- The time-engine firmware serves as grandmaster or parent clock for another unit (R499). -/
  timeServes : Bool := false
deriving DecidableEq, Repr

/-! ## Monitors (R527, R533, R534) -/

/-- The sensors of PD00/SENSOR. -/
structure SensorSt where
  rails : SMap Nat := []
  /-- Bit r: rail r is out of its margin band. -/
  railOut : Nat := 0
  /-- By rail: the instant of its last SUPPLY_MARGIN_ALARM, plus one. -/
  railAt : SMap Nat := []
  /-- 11-bit readings by sensor. -/
  temps : SMap Nat := []
  /-- Bit s: sensor s was at or above its alarm level at its last sample. -/
  alarms : Nat := 0
  targetA : Nat := 750
  targetB : Nat := 750
  /-- By side: the instant of the last step of its target, plus one. -/
  targetAt : SMap Nat := []
deriving DecidableEq, Repr

/-! ## The state -/

/-- The state of the unit. -/
structure State where
  /-- The commands waiting, first in, first out. -/
  pending : List Instr := []
  /-- The model's own counter of free values drawn (notes/assumptions 1). -/
  freeCtr : Nat := 0
  /-- The instant, in ps since power-on (notes/assumptions 2). -/
  now : Nat := 0
  engines : SMap Engine := []
  ledger : Ledger := {}
  whey : Whey := {}
  regs : RegFile := {}
  /-- Entries in TABLE_LOST by handle (R433). -/
  lostEntries : List Nat := []
  /-- Table entries of which a byte fails parity, by handle, until their repair or next write (R250, R431, R433). -/
  badEntries : List Nat := []
  /-- The two generations, by the parity of the epoch (R103). -/
  bank0 : Bank := {}
  bank1 : Bank := {}
  epoch : EpochBlock := {}
  vat : Vat := {}
  press : Press := {}
  /-- Pool 7 descriptors by index. -/
  descs : SMap Desc := []
  cave : Cave := {}
  time : TimeSt := {}
  triad : TriadSt := {}
  scraper : ScraperSt := {}
  qm : QueueMgr := {}
  sched : SchedSt := {}
  roll : RollSt := {}
  pipes : SMap PipeSt := []
  macs : SMap MacSt := []
  /-- Frames on their way to the enqueue decision, oldest first. -/
  enqPath : List EnqItem := []
  /-- Port statistics: 64 × port + counter (R403, R520). -/
  portStats : SMap Nat := []
  out : List Output := []
  mirror : MirrorSt := {}
  tree : TreeSt := {}
  l2 : L2St := {}
  routes : RouteSt := {}
  /-- Flow counters: packets and bytes (R517 to R520). -/
  flows : SMap (Nat × Nat) := []
  power : PowerSt := {}
  lanes : SMap LaneSt := []
  /-- Bit t: the transmit PLL of tile t is locked (R389). -/
  tilePll : Nat := 0
  fabric : FabricSt := {}
  perf : PerfSt := {}
  i3c : I3cSt := {}
  ctl : CtlPortSt := {}
  flash : FlashSt := {}
  boot : BootSt := {}
  upd : UpdSt := {}
  sensor : SensorSt := {}
deriving DecidableEq, Repr

/-- Why the machine stops with a fault: no command of this block does. -/
inductive Fault where
deriving DecidableEq, Repr

/-- Why a command has no meaning. -/
inductive Refusal where
  /-- Raised by an arm of `exec` whose command the model gives no meaning yet; safe. -/
  | notModelled (mnemonic : String)
deriving DecidableEq, Repr

/-- The buffers the pager holds from reset: pool 6 buffers 0 to 3 of every Cave channel (R256). -/
def pagerHolds : SMap HoldRec :=
  (List.range 32).map (fun i =>
    (6 * 2 ^ 29 + i / 4 * 768 + i % 4, { owner := 5 * 2 ^ 28 + i / 16, holds := 1, chain := 0 }))

/-- The unit right after power-on: VAON is up and reset is held until the boot anchor (R470, R528). -/
def State.reset : State := { vat := { held := pagerHolds } }

end Sys2Proof.Machine
end

