-- ==== Sys2Proof/Machine/Ops.lean ====
section
/-!
DEFINITION. The operations every family uses: free values, the clock, the event ledger's input, the Whey, the
stored registers and the two generations.
-/
namespace Sys2Proof.Machine

/-! ## Free values -/

/-- Draw one free value (notes/assumptions 1). -/
def freeDraw (s : State) : BitVec 64 × State :=
  (Sys2Proof.Config.freeValue s.freeCtr, { s with freeCtr := s.freeCtr + 1 })

/-- A free number below `n` (0 where `n` is 0). -/
def freeBelow (n : Nat) (s : State) : Nat × State :=
  ((Sys2Proof.Config.freeValue s.freeCtr).toNat % n, { s with freeCtr := s.freeCtr + 1 })

/-! ## The clock -/

/-- One second in units of 2⁻¹⁶ ns (R404). -/
def secUnits : Nat := 1000000000 * 65536

/-- The core clock, 625 ps (R31). -/
def coreClock (s : State) : Nat := s.now / 625

/-- The management clock, 2,500 ps (R31). -/
def mgmtClock (s : State) : Nat := s.now / 2500

/-- The seconds of the engine count. -/
def todSec (s : State) : Nat := s.time.count / secUnits

/-- The nanoseconds of the engine count. -/
def todNs (s : State) : Nat := s.time.count % secUnits / 65536

/-- The fraction of the engine count. -/
def todFrac (s : State) : Nat := s.time.count % 65536

/-- The copy of the time in the tile of a lane: it stamps frames and opens gates (R406, R407). -/
def tileTime (s : State) (n : Nat) : Nat := ((s.time.count : Int) + mget 0 s.time.tileError (n / 64)).toNat

/-- The core copy of the time as the epoch block reads it at this instant (R406, R407). -/
def coreTime (s : State) : Nat :=
  ((s.time.count : Int) + (Sys2Proof.Config.coreCopy s.now % 81921 : Nat) - 40960).toNat

/-- Whether a time was taken in SWITCHOVER or HOLDOVER (R412). -/
def inHoldover (s : State) : Bool :=
  s.time.state = .switchover || s.time.state = .holdover

/-- Picoseconds in a microsecond, a millisecond and a second. -/
def psUs : Nat := 1000000
/-- See `psUs`. -/
def psMs : Nat := 1000000000
/-- See `psUs`. -/
def psSec : Nat := 1000000000000

/-! ## Events and drops -/

/-- The order in which events of one management clock are written (R442). -/
def Event.before (a b : Event) : Bool :=
  if a.clock ≠ b.clock then a.clock < b.clock
  else if a.place.1 ≠ b.place.1 then a.place.1 < b.place.1
  else if a.place.2 ≠ b.place.2 then a.place.2 < b.place.2
  else if a.code ≠ b.code then a.code < b.code
  else a.payload < b.payload

/-- The FIFO with an event after every event not behind it. -/
def fifoInsert (e : Event) : List Event → List Event
  | [] => [e]
  | x :: xs => if Event.before e x then e :: x :: xs else x :: fifoInsert e xs

/-- Raise an event at a block: it enters the ledger's 64-entry FIFO, or is discarded and counted (R442). -/
def raiseAt (place : Nat × Nat) (code payload ext : Nat) (s : State) : State :=
  if 64 ≤ s.ledger.fifo.length then
    { s with ledger := { s.ledger with dropped := ((s.ledger.dropped + 1) % 4294967296), overrun := s.ledger.overrun + 1 } }
  else
    let e : Event := { place := place, code := code, payload := payload, ext := ext, holdover := inHoldover s, sec := todSec s, ns := todNs s, clock := mgmtClock s, notSet := s.time.notSet }
    { s with ledger := { s.ledger with fifo := fifoInsert e s.ledger.fifo } }

/-- Raise an event that has no extended payload at a block with registers. -/
def raise (b : Block) (code payload : Nat) (s : State) : State :=
  raiseAt (blockPlace b) code payload 0 s

/-! ## Generations (R103, R203) -/

/-- The generation of an epoch: its parity. -/
def bankOf (s : State) (epoch : Nat) : Bank := if epoch % 2 = 0 then s.bank0 else s.bank1

/-- The live generation. -/
def liveBank (s : State) : Bank := bankOf s s.epoch.live

/-- The shadow generation. -/
def shadowBank (s : State) : Bank := bankOf s (s.epoch.live + 1)

/-- The state with the generation of an epoch replaced. -/
def setBank (epoch : Nat) (b : Bank) (s : State) : State :=
  if epoch % 2 = 0 then { s with bank0 := b } else { s with bank1 := b }

/-- The key of an entry: type, instance and index of R125. -/
def tblKey (type inst idx : Nat) : Nat := type * 2 ^ 48 + inst * 2 ^ 32 + idx

/-- An entry image of a bank as a little-endian number; 0 where nothing was written. -/
def Bank.entry (b : Bank) (type inst idx : Nat) : Nat := mget 0 b.tbl (tblKey type inst idx)

/-- An entry image in the generation of an epoch. -/
def tblGet (s : State) (epoch type inst idx : Nat) : Nat := (bankOf s epoch).entry type inst idx

/-- Write an entry image into the generation of an epoch. -/
def tblPut (epoch type inst idx img : Nat) (s : State) : State :=
  let b := bankOf s epoch
  setBank epoch { b with tbl := mset 0 b.tbl (tblKey type inst idx) img } s

/-- Whether shadow writes are open to writers: a shadow is open and no commit is pending or scheduled (R12, R137). -/
def staged (s : State) : Bool :=
  s.epoch.shadowOpen && decide (s.epoch.commit = .none)

/-- An entry of a table fails parity when it is read (R250, R431). -/
def badEntry (s : State) (type inst idx : Nat) : Bool := s.badEntries.contains (tblKey type inst idx)

/-- An entry that is rewritten stores fresh parity and is no longer in TABLE_LOST (R433). -/
def endLoss (key : Nat) (s : State) : State :=
  if s.lostEntries.contains key ∨ s.badEntries.contains key then
    { s with
      lostEntries := s.lostEntries.filter (fun k => k != key)
      badEntries := s.badEntries.filter (fun k => k != key) }
  else s

/-! ## Stored registers (R12, R467 to R469) -/

/-- A register's number in control space: its address without the alias, divided by 16. -/
def regKey (b : Block) (r : Nat) : Nat := regAddr b r / 16

/-- The masks and the Reset value of a register; none stored where it is not listed. -/
def specOf (b : Block) (r : Nat) : RegSpec := (regSpec b r).getD {}

/-- The stored RW bits. -/
def rwBits (s : State) (b : Block) (r : Nat) : Nat :=
  mget ((specOf b r).reset &&& (specOf b r).rw) s.regs.rw (regKey b r)

/-- The RWL bits of a bank. -/
def Bank.rwlBits (k : Bank) (b : Block) (r : Nat) : Nat :=
  mget ((specOf b r).reset &&& (specOf b r).rwl) k.rwl (regKey b r)

/-- The flipped bits of a register in the condition of R432; 0 where it is not in it. -/
def flipsOf (s : State) (b : Block) (r : Nat) : Nat :=
  match s.regs.parity.find? (fun p => p.1 == regAddr b r) with
  | some p => p.2
  | none => 0

/-- Registers whose safe value is what is in force and not the Reset value (R432). -/
def keepsInForce : Block → Nat → Bool
  | .vat, r => r == 1 || (decide (16 ≤ r) && decide (r ≤ 31))
  | .time, r => decide (r ≤ 2)
  | .fabric, r => r == 2 || r == 3
  | _, _ => false

/-- The RW bits a function takes: the stored ones, or the safe value of R432. -/
def effRw (s : State) (b : Block) (r : Nat) : Nat :=
  if flipsOf s b r = 0 ∨ keepsInForce b r then rwBits s b r else (specOf b r).reset &&& (specOf b r).rw

/-- The field [hi:lo] of an RW register as the unit's functions take it. -/
def rwField (s : State) (b : Block) (r hi lo : Nat) : Nat := fieldOf (effRw s b r) hi lo

/-- The field [hi:lo] of an RWL register in the generation of an epoch. -/
def rwlFieldAt (s : State) (epoch : Nat) (b : Block) (r hi lo : Nat) : Nat :=
  fieldOf ((bankOf s epoch).rwlBits b r) hi lo

/-- The field [hi:lo] of an RWL register in the live generation. -/
def rwlField (s : State) (b : Block) (r hi lo : Nat) : Nat := rwlFieldAt s s.epoch.live b r hi lo

/-- The epoch a pipe stamps: the generation its ports, scheduler and MACs run under (R59). -/
def pipeEp (s : State) (p : Nat) : Nat := mget 0 s.epoch.pipeEpoch p

/-- The field [hi:lo] of an RWL register of a pipe's side, in the generation the pipe has cut over to (R59). -/
def pipeField (s : State) (p : Nat) (b : Block) (r hi lo : Nat) : Nat := rwlFieldAt s (pipeEp s p) b r hi lo

/-- The field as it stands in the stage when a shadow is open, else live. -/
def rwlStagedField (s : State) (b : Block) (r hi lo : Nat) : Nat :=
  rwlFieldAt s (if s.epoch.shadowOpen then s.epoch.live + 1 else s.epoch.live) b r hi lo

/-- Store RW bits. -/
def setRw (b : Block) (r v : Nat) (s : State) : State :=
  { s with regs := { s.regs with
      rw := mset ((specOf b r).reset &&& (specOf b r).rw) s.regs.rw (regKey b r) (v &&& (specOf b r).rw) } }

/-- Store RWL bits into the generation of an epoch. -/
def setRwl (epoch : Nat) (b : Block) (r v : Nat) (s : State) : State :=
  let k := bankOf s epoch
  setBank epoch { k with
    rwl := mset ((specOf b r).reset &&& (specOf b r).rwl) k.rwl (regKey b r) (v &&& (specOf b r).rwl) } s

/-- End the parity condition of a register (R432, R469). -/
def clearParity (b : Block) (r : Nat) (s : State) : State :=
  { s with regs := { s.regs with parity := s.regs.parity.filter (fun p => p.1 != regAddr b r) } }

/-! ## Performance counters (R509 to R515) -/

/-- The counters that a write has selected an event for: the counters whose PERF_SEL is listed. -/
def perfSelected (s : State) : List Nat :=
  (s.regs.rw.filter (fun p => decide (13 * 2 ^ 23 ≤ p.1) && decide (p.1 < 13 * 2 ^ 23 + 4096) && p.1 % 16 == 0)).map
    (fun p => p.1 % 4096 / 16)

/-- Whether counters are frozen (R516). -/
def perfFrozen (s : State) : Bool := rwField s .perfctr 4096 0 0 == 1

/-- A counter gains an amount; its overflow bit records a wrap (R514). -/
def perfAdd (n amount : Nat) (x : PerfSt) : PerfSt :=
  let v := mget 0 x.value n + amount
  { x with
    value := mset 0 x.value n (v % 2 ^ 64)
    ovf := if 2 ^ 64 ≤ v then x.ovf ||| 2 ^ n else x.ovf }

/-- A counter loses an amount that this core clock had added, and the wrap that it made (R515). -/
def perfTake (n amount : Nat) (x : PerfSt) : PerfSt :=
  let v := mget 0 x.value n
  { x with
    value := mset 0 x.value n ((v + 2 ^ 64 - amount % 2 ^ 64) % 2 ^ 64)
    ovf := if v < amount ∧ bitOf x.ovf n ∧ ¬ bitOf x.startOvf n then x.ovf - 2 ^ n else x.ovf }

/-- A counter's event of this core clock: noted, and counted unless the counters are frozen in it (R515). -/
def perfCount (n amount : Nat) (s : State) : State :=
  let noted := { s.perf with clockAdds := mset 0 s.perf.clockAdds n (mget 0 s.perf.clockAdds n + amount) }
  { s with perf := if perfFrozen s then noted else perfAdd n amount noted }

/-- The counters are frozen or run from this core clock on, its own events included (R515); `was` is how they stood. -/
def freezeEdge (was : Bool) (s : State) : State :=
  { s with perf := if was = perfFrozen s then s.perf
      else s.perf.clockAdds.foldl (fun x p => if was then perfAdd p.1 p.2 x else perfTake p.1 p.2 x) s.perf }

/-- Whether an event passes the four filters of a counter (R512, R513). -/
def perfPasses (s : State) (n : Nat) (ev : PerfEvent) : Bool :=
  let f := fun hi lo => rwField s .perfctr (16 * n + 1) hi lo
  let tierOk := match ev.tier with
    | some t => bitOf (f 3 0) t
    | none => bitOf (f 3 0) 3
  let classOk := match ev.cls with
    | some c => bitOf (f 12 4) c
    | none => bitOf (f 12 4) 8
  let addrOk := if f 25 25 = 0 then true else match ev.addr with
    | some a => decide (rwField s .perfctr (16 * n + 2) 31 0 ≤ a) && decide (a ≤ rwField s .perfctr (16 * n + 3) 31 0)
    | none => false
  ((ev.master ^^^ f 18 13) &&& f 24 19) == 0 && tierOk && classOk && addrOk

/-- Whether a counter counts an event (R509). -/
def perfCounts (s : State) (n : Nat) (ev : PerfEvent) : Bool :=
  rwField s .perfctr (16 * n) 11 10 == 1 && rwField s .perfctr (16 * n) 9 0 == ev.code && perfPasses s n ev

/-- Add an event to the counters of a list that count it. -/
def perfAddTo (ev : PerfEvent) : List Nat → State → State
  | [], s => s
  | n :: ns, s => perfAddTo ev ns (if perfCounts s n ev then perfCount n ev.amount s else s)

/-- An event in this core clock (R509). -/
def perfEvent (ev : PerfEvent) (s : State) : State :=
  if !bitOf s.power.on 13 then s else perfAddTo ev (perfSelected s) s

/-- The master code of an engine (R512). -/
def engineMaster (e : Nat) : Nat := if e = 18 then 0x32 else 0x20 + e

/-- The master code of a block's place (R512); a block that R512 gives none takes `Config.blockMaster`. -/
def placeMaster (pl : Nat × Nat) : Nat :=
  if 4 ≤ pl.1 ∧ pl.1 ≤ 7 then 8 * (pl.1 - 4) + pl.2 / 64
  else if 22 ≤ pl.1 ∧ (pl.2 = 1 ∨ pl.2 = 2) then 0x22 + 2 * (pl.1 - 22) + (pl.2 - 1)
  else match pl with
    | (0, 1) => 0x33
    | (0, 2) => 0x32
    | (1, 0) => 0x20
    | (1, 4) => 0x34
    | (2, 0) => 0x21
    | (3, 1) => 0x39
    | (3, 4) => 0x36
    | (3, 5) => 0x37
    | (3, 6) => 0x38
    | (12, 0) => 0x35
    | _ => Sys2Proof.Config.blockMaster pl.1 pl.2 % 64

/-- The master code of an access's source (R82, R512). -/
def sourceMaster : Source → Nat
  | .triad => 0x20
  | .timeEngine => 0x21
  | .tileCore t b => 0x22 + 2 * t.val + b.val
  | .starter => 0x32
  | .i3c => 0x33
  | .inband _ => 0x34

/-- The master code of an owner that claims (R257, R512). -/
def ownerMaster (o : Nat) : Nat :=
  match o / 2 ^ 28 with
  | 1 => o % 64
  | 2 => o % 64
  | 3 => 0x39
  | 4 => 0x37
  | 5 => 0x35
  | 7 => 0x20
  | 9 => 0x36
  | _ => Sys2Proof.Config.blockMaster 32 (o / 2 ^ 28) % 64

/-! ## The Whey (R444, R447) -/

/-- The block that drops under a reason (R447, R512). -/
def dropMaster (reason port : Nat) : Nat :=
  if reason ≤ 0x21 ∨ reason = 0x40 ∨ reason = 0x41 ∨ reason = 0x43 then port / 16 % 32
  else if reason = 0x27 then 0x35
  else if reason ≤ 0x2A ∨ reason = 0x37 then 0x39
  else if reason = 0x35 ∨ reason = 0x36 then 0x37
  else if reason = 0x42 then 0x36
  else 0x38

/-- Count `n` drops under a Whey reason at a port; none is counted while PD13 is off (R444, R447, R531). -/
def wheyN (reason n port : Nat) (s : State) : State :=
  let w : Whey := { s.whey with
    count := mset 0 s.whey.count reason ((mget 0 s.whey.count reason + n) % 2 ^ 64)
    last := if n = 0 then s.whey.last else reason
    lastPort := if n = 0 then s.whey.lastPort else port }
  if !bitOf s.power.on 13 then s
  else perfEvent { code := 0x014, master := dropMaster reason port, amount := n } { s with whey := w }

/-- The drop_reason recorded with a PROGRAM_DROP (R167, R168, R175; notes/assumptions 143). -/
def noteReason (r : Nat) (s : State) : State :=
  if bitOf s.power.on 13 then { s with whey := { s.whey with programReason := r } } else s

/-- Count one drop. -/
def whey (reason port : Nat) (s : State) : State := wheyN reason 1 port s

/-- Whether a table entry, by its key, lies in pipe p: its parse profiles, programs, scheduler nodes, policers or gate
lists (R436, R487). -/
def pipeEntry (p key : Nat) : Bool :=
  let type := key / 2 ^ 48
  let inst := key / 2 ^ 32 % 2 ^ 16
  if type = 0x09 then key % 2 ^ 32 / 8192 == p
  else if type = 0x0F then inst / 16 == p
  else (type == 0x0A || type == 0x0B || type == 0x0C || type == 0x0E) && inst == p

/-- A pipe's entries are loaded from the Cave shadows: none of them fails parity any longer (R436, R487). -/
def reloadPipe (p : Nat) (s : State) : State :=
  { s with badEntries := s.badEntries.filter (fun k => !pipeEntry p k) }

/-! ## Arrivals (R55) -/

/-- Whether a command is an arrival that R55 evaluates before the expiries of its clock: a frame or a cell, a training
frame, a rest marker, a lock or a loss at a lane, a fragment or a hit of a table entry in a pipe, a selection, a learn. -/
def isArrival : Instr → Bool
  | .frameReceive .. => true
  | .cellReceive .. => true
  | .trainingFrameReceive .. => true
  | .ingressSequence .. => true
  | .egressSequence .. => true
  | .learnApply => true
  | .egressSelection .. => true
  | .fabricSend .. => true
  | .receiverReady .. => true
  | .fecLock .. => true
  | .laneLossOfSignal .. => true
  | .restMarkerReceive .. => true
  | _ => false

/-- Whether an arrival of this core clock still waits: every waiting command is one of this clock, and expiries come after
the arrivals (R55; notes/assumptions 145). -/
def arrivalsWait (s : State) : Bool := s.pending.any isArrival

/-! ## Domains (R25, R470, R486) -/

/-- Whether a domain reports on. -/
def domainOn (s : State) (d : Nat) : Bool := bitOf s.power.on d

/-- READY bit of pipe p: its domain is on and it is not faulted (R486). -/
def pipeReady (s : State) (p : Nat) : Bool := domainOn s (4 + p / 8) && !(mget {} s.pipes p).faulted

/-! ## Sources (R82, R446) -/

/-- The source code of R446, with the tile, core or channel at its places. -/
def sourceField : Source → Nat
  | .triad => 0
  | .timeEngine => 1 * 2 ^ 32
  | .tileCore t b => 2 * 2 ^ 32 + t.val * 2 ^ 42 + b.val * 2 ^ 45
  | .starter => 3 * 2 ^ 32
  | .i3c => 4 * 2 ^ 32
  | .inband ch => 5 * 2 ^ 32 + ch.val * 2 ^ 36

/-- A write refused with a configuration event: the control address as presented, the source, the value (R446). -/
def raiseRefused (b : Block) (code addr : Nat) (src : Source) (val : Nat) (s : State) : State :=
  raiseAt (blockPlace b) code (addr + sourceField src % 2 ^ 36) val s

/-! ## What leaves the unit -/

/-- Record what leaves the unit (notes/assumptions 5). -/
def emit (o : Output) (s : State) : State := { s with out := s.out ++ [o] }

/-! ## Engines -/

/-- The engine numbered `e`. -/
def engine (s : State) (e : Nat) : Engine := mget {} s.engines e

/-- The state with engine `e` replaced. -/
def setEngine (e : Nat) (x : Engine) (s : State) : State :=
  { s with engines := mset {} s.engines e x }

end Sys2Proof.Machine
end

