-- ==== Sys2Proof/Machine/Vat.lean ====
section
/-!
DEFINITION. The Vat: the geometry of the pools, claims under the reserve floors, holding records and the ends of
holds (R252 to R267, R271).
-/
namespace Sys2Proof.Machine

/-! ## Pools (R252 to R256) -/

/-- A buffer handle: pool in [31:29] and index in [28:0] (R130). -/
def handle (pool idx : Nat) : Nat := pool * 2 ^ 29 + idx
/-- The pool of a handle. -/
def hPool (h : Nat) : Nat := h / 2 ^ 29 % 8
/-- The index of a handle. -/
def hIdx (h : Nat) : Nat := h % 2 ^ 29

/-- Bytes of one buffer of a pool (R252). -/
def bufSize : Nat → Nat
  | 0 => 256 | 1 => 128 | 2 => 1024 | 3 => 8192 | 4 => 65536 | 5 => 4096 | 6 => 2097152 | _ => 64

/-- The pool a scratch segment is mapped to (R253, R278). -/
def segPool (s : State) (seg : Nat) : Nat :=
  1 + rwField s .vat (16 + seg / 16) (2 * (seg % 16) + 1) (2 * (seg % 16))

/-- pool6_per_channel (R255). -/
def pool6Per (s : State) : Nat := rwField s .vat 1 9 0

/-- Pool 5 pages per channel (R255). -/
def pool5Per (s : State) : Nat := 6258688 - 512 * pool6Per s

/-- Whether an index lies in its pool's storage (R252 to R255). -/
def inStorage (s : State) (pool idx : Nat) : Bool :=
  match pool with
  | 0 => idx < 1507328
  | 5 => idx / 6291456 < 8 && idx % 6291456 < pool5Per s
  | 6 => idx / 768 < 8 && idx % 768 < pool6Per s
  | 7 => idx < 1572864
  | p => p < 8 && idx * bufSize p < 16777216 && segPool s (idx * bufSize p / 65536) = p

/-- The Cave channel of an index of pool 5 or 6. -/
def chanOf (pool idx : Nat) : Nat := if pool = 5 then idx / 6291456 else idx / 768

/-- A Cave channel. -/
def chan (s : State) (c : Nat) : CaveChan := mget {} s.cave.chan c

/-- The state with a Cave channel replaced. -/
def setChan (c : Nat) (x : CaveChan) (s : State) : State :=
  { s with cave := { s.cave with chan := mset {} s.cave.chan c x } }

/-- The segments of a pool in the Press halves that are on, as index ranges: first index and number (R531). -/
def segRanges (s : State) (pool : Nat) : List (Nat × Nat) :=
  ((List.range 256).filter (fun g => segPool s g == pool && domainOn s (10 + g / 128))).map
    (fun g => (g * (65536 / bufSize pool), 65536 / bufSize pool))

/-- The index ranges a claim on a pool may take from, in half `half` of pools 0 and 7, of ready channels only. -/
def poolRanges (s : State) (pool half : Nat) : List (Nat × Nat) :=
  match pool with
  | 0 => if domainOn s (10 + half) then [(753664 * half, 753664)] else []
  | 7 => [(786432 * half, 786432)]
  | 5 => ((List.range 8).filter (fun c => (chan s c).ready)).map (fun c => (6291456 * c, pool5Per s))
  | 6 => ((List.range 8).filter (fun c => (chan s c).ready)).map (fun c => (768 * c, pool6Per s))
  | p => segRanges s p

/-- The indexes of a pool that no claim may take: held, returned in this core clock, retired, or in a word under
rebuild (R258, R266, R276, R435). -/
def takenOf (s : State) (pool : Nat) : SMap Unit :=
  let held : SMap Unit := ((s.vat.held.filter (fun p => hPool p.1 == pool)).map (fun p => hIdx p.1)).foldr
    (fun i m => mput m i ()) []
  let back := (s.vat.returned.filter (fun h => hPool h == pool)).map hIdx
  let words := (s.vat.rebuilding.filter (fun w => w.1 == pool)).flatMap
    (fun w => (List.range 64).map (fun i => w.2 * 64 + i))
  let retired := if pool = 5 then
      (List.range 8).flatMap (fun c => (chan s c).retired.map (fun p => 6291456 * c + p)) else []
  (back ++ words ++ retired).foldl (fun m i => mput m i ()) held

/-- How many indexes of a range are taken. -/
def takenIn (taken : SMap Unit) (r : Nat × Nat) : Nat :=
  (taken.filter (fun p => r.1 ≤ p.1 && p.1 < r.1 + r.2)).length

/-- The free buffers of a list of ranges. -/
def freeIn (taken : SMap Unit) (rs : List (Nat × Nat)) : Nat :=
  (rs.map (fun r => r.2 - takenIn taken r)).foldl (· + ·) 0

/-- The k-th free index of a list of ranges. -/
def kthFree (taken : SMap Unit) : List (Nat × Nat) → Nat → Option Nat
  | [], _ => none
  | r :: rs, k =>
    let n := r.2 - takenIn taken r
    if k < n then
      some ((taken.filter (fun p => r.1 ≤ p.1 && p.1 < r.1 + r.2)).foldl
        (fun cur p => if p.1 ≤ cur then cur + 1 else cur) (r.1 + k))
    else kthFree taken rs (k - n)

/-- The free count of a pool (R278): buffers on Cave channels that are not ready do not count. -/
def freeCount (s : State) (pool : Nat) : Nat :=
  let taken := takenOf s pool
  if pool = 0 ∨ pool = 7 then freeIn taken (poolRanges s pool 0) + freeIn taken (poolRanges s pool 1)
  else freeIn taken (poolRanges s pool 0)

/-- All buffers of a pool, for the sum of its floors (R278). -/
def poolSize (s : State) (pool : Nat) : Nat :=
  match pool with
  | 0 => 1507328 | 7 => 1572864 | 5 => 8 * pool5Per s | 6 => 8 * pool6Per s
  | p => (segRanges s p).length * (65536 / bufSize p)

/-- VAT_FLOOR of pool p for class k (R278). -/
def floorOf (s : State) (pool k : Nat) : Nat := rwField s .vat (32 + 4 * pool + k) 25 0

/-- The floors a class must leave: those of the classes ranked above it (R265). Class 4 is control. -/
def floorsAbove (s : State) (pool cls : Nat) : Nat :=
  ((List.range (min cls 4)).map (floorOf s pool)).foldl (· + ·) 0

/-- Whether a claim of n buffers by a class succeeds (R265). -/
def canClaim (s : State) (pool cls n : Nat) : Bool :=
  n + floorsAbove s pool cls ≤ freeCount s pool

/-! ## Owners (R257) -/

/-- An owner name of a kind and instance. -/
def ownerName (kind inst : Nat) : Nat := kind * 2 ^ 28 + inst
/-- The kind of an owner name. -/
def ownerKind (o : Nat) : Nat := o / 2 ^ 28
/-- The Scraper's own name. -/
def scraperName : Nat := ownerName 9 0

/-- The requester class of an owner name: 0 Scraper, 1 egress, 2 fabric, 3 ingress, 4 control (R257). -/
def ownerClass (o : Nat) : Nat :=
  match ownerKind o with
  | 9 => 0 | 2 => 1 | 5 => 1 | 4 => 2 | 1 => 3 | 6 => 3 | _ => 4

/-- The Press half of a requester's side, when it has one (R263). -/
def ownerHalf (o : Nat) : Option Nat :=
  match ownerKind o with
  | 1 => some (o % 2 ^ 28 / 16) | 2 => some (o % 2 ^ 28 / 16)
  | 4 => some (o % 2 ^ 28) | 5 => some (o % 2 ^ 28) | _ => none

/-- The half a claim takes from first (R263). -/
def firstHalf (s : State) (pool o : Nat) : Nat :=
  match ownerHalf o with
  | some h => h % 2
  | none =>
    let taken := takenOf s pool
    if freeIn taken (poolRanges s pool 0) < freeIn taken (poolRanges s pool 1) then 1 else 0

/-! ## Claims -/

/-- Count a failed claim on a pool (R266). -/
def countEmpty (pool : Nat) (s : State) : State :=
  { s with vat := { s.vat with
      empties := mset 0 s.vat.empties pool ((mget 0 s.vat.empties pool + 1) % 2 ^ 32) } }

/-- A Vat claim and how it was answered, for the counters (R510). -/
def claimEvent (o : Nat) (granted : Bool) (s : State) : State :=
  let s1 := perfEvent { code := 0x020, master := ownerMaster o } s
  if granted then s1 else perfEvent { code := 0x021, master := ownerMaster o } s1

/-- The cell bank of a pool 0 index: 92 banks of 8,192 cells in each Press half (R272). -/
def cellBank (i : Nat) : Nat := i / 8192 % 92

/-- The bank of a Press half that gives the next cell: the first in rotation that holds a free one (R272). -/
def bankRanges (s : State) (taken : SMap Unit) (half : Nat) : List (Nat × Nat) :=
  let order := (List.range 92).map (fun i => (mget 0 s.vat.nextBank half + i) % 92)
  match order.find? (fun b => decide (0 < freeIn taken [(753664 * half + 8192 * b, 8192)])) with
  | some b => [(753664 * half + 8192 * b, 8192)]
  | none => []

/-- The ranges a claim draws its next buffer from (R263, R272, R274). -/
def claimRanges (s : State) (pool o : Nat) : List (Nat × Nat) :=
  let taken := takenOf s pool
  if pool = 0 ∨ pool = 7 then
    let h := firstHalf s pool o
    let first := poolRanges s pool h
    let half := if freeIn taken first = 0 then 1 - h else h
    if pool = 0 ∧ domainOn s (10 + half) then bankRanges s taken half else poolRanges s pool half
  else if pool = 5 then
    let order := (List.range 8).map (fun i => (s.cave.nextChan + i) % 8)
    match order.find? (fun c => (chan s c).ready && decide (0 < freeIn taken [(6291456 * c, pool5Per s)])) with
    | some c => [(6291456 * c, pool5Per s)]
    | none => []
  else poolRanges s pool 0

/-- Take one free buffer of a list of ranges for an owner. -/
def takeFrom (rs : List (Nat × Nat)) (pool o : Nat) (s : State) : Option Nat × State :=
  let taken := takenOf s pool
  let n := freeIn taken rs
  let s1 := { s with freeCtr := s.freeCtr + 1 }
  match kthFree taken rs (Sys2Proof.Config.pick s.freeCtr % n) with
  | none => (none, s1)
  | some i =>
    (some i, { s1 with
      vat := { s1.vat with
        held := mput s1.vat.held (handle pool i) { owner := o, holds := 1, chain := 0 }
        nextBank := if pool = 0 then mset 0 s1.vat.nextBank (i / 753664) ((cellBank i + 1) % 92) else s1.vat.nextBank }
      cave := if pool = 5 then { s1.cave with nextChan := (i / 6291456 + 1) % 8 } else s1.cave })

/-- Take one free buffer for an owner; the claim itself was allowed before. -/
def takeOne (pool o : Nat) (s : State) : Option Nat × State := takeFrom (claimRanges s pool o) pool o s

/-- Take n free buffers. -/
def takeMany (pool o : Nat) : Nat → State → List Nat × State
  | 0, s => ([], s)
  | n + 1, s =>
    match takeOne pool o s with
    | (none, s1) => ([], s1)
    | (some i, s1) =>
      let r := takeMany pool o n s1
      (i :: r.1, r.2)

/-- Whether a claim carries a declared name, which the Vat discards (R271). -/
def isDeclared (s : State) (o : Nat) : Bool := s.vat.declared.contains o

/-- Count a request discarded under R271. -/
def countDeclaredDrop (s : State) : State :=
  { s with vat := { s.vat with declaredDrops := (s.vat.declaredDrops + 1) % 2 ^ 32 } }

/-- One claim of n buffers of a pool in a class: the indexes, or none with the failure counted (R265, R266). -/
def claimAs (cls pool o n : Nat) (s : State) : Option (List Nat) × State :=
  if isDeclared s o then (none, countDeclaredDrop s)
  else if canClaim s pool cls n then
    let r := takeMany pool o n s
    (some r.1, claimEvent o true r.2)
  else (none, claimEvent o false (countEmpty pool s))

/-- One claim in the owner's own class. -/
def claim (pool o n : Nat) (s : State) : Option (List Nat) × State := claimAs (ownerClass o) pool o n s

/-! ## Holds (R258 to R261, R131) -/

/-- The handle whose record governs a buffer: a chain's first cell for its other cells (R258). -/
def govern (s : State) (h : Nat) : Nat :=
  match mget {} s.vat.held h with
  | { chain := c, .. } => if c = 0 then h else handle 0 ((c - 1) % 2 ^ 29)

/-- The record that governs a buffer, when the buffer is held. -/
def recordOf (s : State) (h : Nat) : Option HoldRec :=
  if mhas s.vat.held (govern s h) then some (mget {} s.vat.held (govern s h)) else none

/-- The name the Vat takes a record's owner for: a declared owner is the Scraper (R271). -/
def effOwner (s : State) (o : Nat) : Nat := if isDeclared s o then scraperName else o

/-- Whether an owner is the last owner of a record and has not ended its hold (R131, R258, R271). -/
def ownsRecord (s : State) (o : Nat) (r : HoldRec) : Bool := effOwner s r.owner == o && !r.ended

/-- Whether an owner holds a buffer, as its last owner or as a listed sharer (R76, R258, R271). -/
def holdsBuffer (s : State) (o h : Nat) : Bool :=
  match recordOf s h with
  | none => false
  | some r => ownsRecord s o r
    || s.vat.holdTable.any (fun e => e.1 == govern s h && effOwner s e.2.1 == o && decide (0 < e.2.2))

/-- The holds of hardware sharers on a buffer: those that neither the last owner nor the hold table has (R258). -/
def hwSharers (s : State) (g : Nat) (r : HoldRec) : Nat :=
  r.holds - (if r.ended then 0 else 1)
    - ((s.vat.holdTable.filter (fun e => e.1 == g)).map (fun e => e.2.2)).foldl (· + ·) 0

/-- Whether a held buffer is freed with another: itself, or a cell of its chain. -/
def freedWith (h : Nat) (p : Nat × HoldRec) : Bool := !(p.1 != h && (hPool h != 0 || p.2.chain != hIdx h + 1))

/-- Return a buffer and the other cells of its chain to their pool, where they count from the next clock (R266). -/
def freeBuffer (h : Nat) (s : State) : State :=
  { s with vat := { s.vat with
      held := s.vat.held.filter (fun p => p.1 != h && (hPool h != 0 || p.2.chain != hIdx h + 1))
      returned := s.vat.returned ++ (s.vat.held.filter (freedWith h)).map (fun p => p.1)
      holdTable := s.vat.holdTable.filter (fun e => e.1 != h) } }

/-- End one hold of a governed buffer; the last one returns it (R131, R258). -/
def endOneHold (h : Nat) (s : State) : State :=
  match recordOf s h with
  | none => s
  | some r =>
    let g := govern s h
    if r.holds ≤ 1 then freeBuffer g s
    else { s with vat := { s.vat with held := mput s.vat.held g { r with holds := r.holds - 1 } } }

/-- Take `n` off an owner's hold-table entry, removing it at 0. -/
def holdTableTake (h o n : Nat) : List (Nat × Nat × Nat) → List (Nat × Nat × Nat)
  | [] => []
  | e :: es =>
    if e.1 = h ∧ e.2.1 = o then (if e.2.2 ≤ n then es else (h, o, e.2.2 - n) :: es)
    else e :: holdTableTake h o n es

/-- Add `n` to an owner's hold-table entry. -/
def holdTableAdd (h o n : Nat) : List (Nat × Nat × Nat) → List (Nat × Nat × Nat)
  | [] => [(h, o, n)]
  | e :: es => if e.1 = h ∧ e.2.1 = o then (h, o, e.2.2 + n) :: es else e :: holdTableAdd h o n es

/-- The last owner of a buffer ends its hold; its name stays in the record while sharers hold (R131, R258). -/
def endOwnerHold (h : Nat) (s : State) : State :=
  match recordOf s h with
  | none => s
  | some r =>
    let g := govern s h
    if r.holds ≤ 1 then freeBuffer g s
    else { s with vat := { s.vat with held := mput s.vat.held g { r with ended := true, holds := r.holds - 1 } } }

/-- A request of a party that holds no hold (R261). -/
def raiseNotHeld (o h : Nat) (s : State) : State :=
  raiseAt (blockPlace .vat) Ev.vatNotHeld (satField 0 32 h + satField 32 4 6) o s

/-- A hardware holder ends its hold: FREE when it is last owner, else RELEASE; a request under a declared name is
discarded, and one that R131 would refuse is an event and changes nothing (R260, R261, R271). -/
def hwEndHold (o h : Nat) (s : State) : State :=
  if isDeclared s o then countDeclaredDrop s
  else match recordOf s h with
    | none => raiseNotHeld o h s
    | some r =>
      if r.owner = o ∧ ¬ r.ended then endOwnerHold h s
      else if 0 < hwSharers s (govern s h) r then endOneHold h s
      else raiseNotHeld o h s

/-- Name a buffer's last owner and set its holds. -/
def setRecord (h o n : Nat) (s : State) : State :=
  { s with vat := { s.vat with held := mput s.vat.held h { owner := o, holds := n, chain := 0 } } }

/-- Make cells one chain governed by the record of its first cell (R258, R270). -/
def makeChain (cells : List Nat) (o : Nat) (s : State) : State :=
  match cells with
  | [] => s
  | c :: cs =>
    { s with vat := { s.vat with
        held := cs.foldl (fun m i => mput m (handle 0 i) { owner := 0, holds := 0, chain := c + 1 })
          (mput s.vat.held (handle 0 c) { owner := o, holds := 1, chain := 0 }) } }

end Sys2Proof.Machine
end

