-- ==== Sys2Proof/Machine/Krenus.lean ====
section
/-!
DEFINITION. A Krenus-C engine: its registers and tiers, traps, the memory space and its checks (R65 to R88), and
the frame every instruction's meaning is written in.
-/
namespace Sys2Proof.Machine

/-! ## Engines and their registers -/

/-- The Triad. -/
def eTriad : Nat := 0
/-- The time engine core. -/
def eTime : Nat := 1
/-- The Starter. -/
def eStarter : Nat := 18
/-- Core b of tile t. -/
def eTile (t b : Nat) : Nat := 2 + 2 * t + b
/-- Whether an engine is a tile core. -/
def isTile (e : Nat) : Bool := 2 ≤ e && e ≤ 17

/-- A general register; k0 reads 0 (R67). -/
def kget (s : State) (e : EngineId) (k : KReg) : Word64 :=
  if k = 0 then 0 else mget 0 (engine s e).gpr k.val

/-- Write a general register; a write to k0 is discarded (R67). -/
def kset (e : EngineId) (k : KReg) (v : Word64) (s : State) : State :=
  if k = 0 then s
  else setEngine e { engine s e with gpr := mset 0 (engine s e).gpr k.val v } s

/-- The current tier (R69). -/
def tierOf (s : State) (e : Nat) : Nat := (engine s e).status.toNat % 4

/-- An engine's clock period in ps (R65). -/
def clockPs (e : Nat) : Nat := if e = 0 then 625 else if e = 1 then 1000 else 2500

/-- KC_CYCLE: engine clocks since the engine left reset (R68). -/
def cycleOf (s : State) (e : Nat) : Word64 :=
  BitVec.ofNat 64 ((s.now - (engine s e).leftReset) / clockPs e)

/-- Continue at a target. -/
def setPc (e : Nat) (pc : Word64) (s : State) : State := setEngine e { engine s e with pc := pc } s

/-- Continue at the next instruction. -/
def advance (e : Nat) (s : State) : State := setPc e ((engine s e).pc + 4) s

/-! ## The fault summary (R444, R458) -/

/-- FAULT_STATUS (R444). -/
def faultStatus (s : State) : Nat :=
  let voted := (s.time.refs.filter (fun r => r.2.voted)).length
  b2n (s.triad.retired != 0) + b2n (s.triad.mode == .halted) * 2 + b2n s.triad.headlessStopped * 4
    + b2n (!s.regs.parity.isEmpty) * 8 + b2n (s.pipes.any (fun p => p.2.faulted)) * 16
    + b2n (s.cave.chan.any (fun c => c.2.failed)) * 32 + b2n (decide (voted < rwField s .time 0 3 2)) * 64
    + b2n (!s.lostEntries.isEmpty) * 128

/-- FAULT_STATUS under FAULT_MASK. -/
def maskedFaults (s : State) : Nat := faultStatus s &&& rwField s .ledger 4 7 0

/-- The Triad is stalled: a resync, or the hold of an update's handover or handback (R439, R502, R503). -/
def triadStalled (s : State) : Bool :=
  s.triad.resyncing.isSome || s.upd.phase == .handover || s.upd.phase == .handback

/-- Whether FAULT_N is driven low: a masked fault or a halted Starter, the level held through a resync, high
impedance in reset (R439, R458). -/
def faultLow (s : State) : Bool :=
  if s.boot.inReset then false
  else if triadStalled s then s.triad.faultHeld
  else maskedFaults s != 0 || s.boot.halted

/-! ## Traps (R83 to R86) -/

/-- HEADLESS_STOP: every network port and every Skov link stops (R440). -/
def headlessStop (s : State) : State :=
  raise .triad Ev.headlessStop (rwField s .triad 1 16 0)
    { s with triad := { s.triad with headlessStopped := true, stopped := List.range 512 } }

/-- CURRENT is invalidated: its magic is programmed to 0 (R500). Bytes are held as their complement. -/
def invalidateCurrent (s : State) : State :=
  { s with flash := { s.flash with cells := memWrite s.flash.cells 0x100000 (List.replicate 4 0xFF) } }

/-- An install whose pair disagrees is abandoned (R504). -/
def abandonInstall (s : State) : State :=
  if s.upd.phase = .shadow ∨ s.upd.phase = .handover ∨ s.upd.phase = .handback then
    invalidateCurrent { s with upd := { s.upd with phase := .idle, chan := none, imported := false } }
  else s

/-- The Triad halts: forwarding goes headless, and with a headless_limit of 0 the ports stop at once (R438, R440). -/
def triadHalt (cause : Nat) (s : State) : State :=
  let s1 := abandonInstall (raise .triad Ev.triadHalt (cause + s.triad.inVote * 8) s)
  let s2 := setEngine eTriad { engine s1 eTriad with run := .halted }
    { s1 with triad := { s1.triad with mode := .halted, haltedAt := s1.now, resyncing := none } }
  if rwField s .triad 1 16 0 = 0 then headlessStop s2 else s2

/-- A channel leaves the vote: it is isolated and resyncs, or is retired after retire_count isolations within 1 s
(R438, R439). -/
def isolateChannel (c kind item : Nat) (s : State) : State :=
  let times := (c, s.now) :: s.triad.isoTimes.filter (fun t => decide (s.now < t.2 + psSec))
  let recent := (times.filter (fun t => t.1 == c)).length
  let t : TriadSt := { s.triad with
    inVote := s.triad.inVote - 2 ^ c
    isolations := mset 0 s.triad.isolations c ((mget 0 s.triad.isolations c + 1) % 2 ^ 32)
    isoTimes := times
    dissent := s.triad.dissent &&& (7 - 2 ^ c) }
  let s1 := raiseAt (blockPlace .triad) Ev.triadIsolated (c + kind * 4) (item % 2 ^ 32) s
  if rwField s .triad 1 20 17 ≤ recent then
    raise .triad Ev.triadChannelRetired (c + satField 2 4 recent)
      { s1 with triad := { t with mode := .duplex, retired := t.retired + 2 ^ c, resyncing := none } }
  else { s1 with triad := { t with mode := .resync, resyncing := some (c, s.now), faultHeld := faultLow s } }

/-- How the channels present an output: as the command says, and a channel whose registers are wrong differs (R85, R437:
a wrong register shows only when it reaches an output). -/
def presented (s : State) (v : Vote) : Vote :=
  if s.triad.dissent = 0 then v
  else match [0, 1, 2].filter (fun c => bitOf s.triad.dissent c && bitOf s.triad.inVote c), v with
    | [], v => v
    | [c], .agree => .differs (Fin.ofNat 3 c)
    | [c], .differs d => if c = d.val then v else .allDiffer
    | _, _ => .allDiffer

/-- The vote on one output: whether the output is used, and the state after it (R437, R438). Engines other than the
Triad have no vote. -/
def voteOutput (e : Nat) (v : Vote) (kind item : Nat) (s : State) : Bool × State :=
  if e ≠ eTriad then (true, s)
  else match presented s v with
    | .agree => (true, s)
    | .differs c =>
      if ¬ bitOf s.triad.inVote c then (true, s)
      else match s.triad.mode with
        | .triplex => (true, isolateChannel c kind item s)
        | .resync => (false, triadHalt 2 s)
        | .duplex => (false, triadHalt 1 s)
        | .halted => (false, s)
    | .allDiffer => match s.triad.mode with
      | .triplex => (false, triadHalt 0 s)
      | .resync => (false, triadHalt 2 s)
      | .duplex => (false, triadHalt 1 s)
      | .halted => (false, s)

/-- What a double fault does besides stopping the engine (R86). -/
def doubleFault (e : Nat) (cause : Nat) (epc : Word64) (s : State) : State :=
  let ext := epc.toNat % 2 ^ 32
  if e = eTriad then triadHalt 3 (raiseAt (blockPlace .triad) Ev.triadDoubleFault cause ext s)
  else if e = eTime then
    let s1 := raiseAt (blockPlace .time) Ev.timeCoreHalt cause ext s
    { s1 with time := { s1.time with state := .holdover, refused := false } }
  else if e = eStarter then
    raiseAt (blockPlace .starter) Ev.starterHalt cause ext { s with boot := { s.boot with halted := true } }
  else raiseAt (blockPlace (.tcore ((e - 2) / 2) ((e - 2) % 2))) Ev.tileCoreHalt
    (cause + (e - 2) / 2 * 2 ^ 8 + (e - 2) % 2 * 2 ^ 11) ext s

/-- What a trap entry writes: save, enter T0, clear int_enable, set in_trap, continue at KC_TVEC (R83). -/
def enterTrap (e : Nat) (cause : Nat) (tval epc : Word64) (s : State) : State :=
  let x := engine s e
  let st := x.status.toNat
  setEngine e { x with
    cause := BitVec.ofNat 64 cause, tval := tval, epc := epc,
    status := BitVec.ofNat 64 (st % 4 * 4 + st / 16 % 2 * 32 + 64),
    pc := x.tvec } s

/-- The vote on a trap entry of the Triad (R437); what the event of a difference carries of it is a free value. -/
def voteTrap (e : Nat) (s : State) : Bool × State :=
  if e ≠ eTriad ∨ presented s .agree = .agree then (true, s)
  else voteOutput e .agree 4 (freeDraw s).1.toNat (freeDraw s).2

/-- Take a trap: the Triad votes the entry; a trap taken while in_trap is 1 stops the engine (R86). -/
def takeTrap (e : Nat) (cause : Nat) (tval epc : Word64) (s0 : State) : State :=
  let v := voteTrap e s0
  if ¬ v.1 then v.2
  else
    let s := perfEvent { code := 0x051, master := engineMaster e, tier := if cause = 0x20 then none else some (tierOf s0 e) } v.2
    if bitOf (engine s e).status.toNat 6 then doubleFault e cause epc (setEngine e { engine s e with run := .halted } s)
    else enterTrap e cause tval epc s

/-- Take a trap at the current instruction. -/
def trapHere (e : Nat) (cause : Nat) (tval : Word64) (s : State) : State :=
  takeTrap e cause tval (engine s e).pc s

/-- Return from a trap: tier from prev_tier, int_enable from prev_int_enable, in_trap 0, to KC_EPC (R119). -/
def returnFromTrap (e : Nat) (s : State) : State :=
  let x := engine s e
  let st := x.status.toNat
  setEngine e { x with
    status := BitVec.ofNat 64 (st / 4 % 4 + st / 4 % 4 * 4 + st / 32 % 2 * 16 + st / 32 % 2 * 32),
    pc := x.epc } s

/-- KC_CAUSE codes (R84). -/
def causeIllegal : Nat := 0x01
/-- See `causeIllegal`. -/
def causeTier : Nat := 0x02
/-- See `causeIllegal`. -/
def causeGroup : Nat := 0x03
/-- See `causeIllegal`. -/
def causeFetchAlign : Nat := 0x04
/-- See `causeIllegal`. -/
def causeDataAlign : Nat := 0x05
/-- See `causeIllegal`. -/
def causeRange : Nat := 0x06
/-- See `causeIllegal`. -/
def causeRegion : Nat := 0x07
/-- See `causeIllegal`. -/
def causeCtrl : Nat := 0x08
/-- See `causeIllegal`. -/
def causeNotHeld : Nat := 0x09
/-- See `causeIllegal`. -/
def causeLength : Nat := 0x0A
/-- See `causeIllegal`. -/
def causeDesc : Nat := 0x0B
/-- See `causeIllegal`. -/
def causeParity : Nat := 0x0C
/-- See `causeIllegal`. -/
def causeCall : Nat := 0x10
/-- See `causeIllegal`. -/
def causeInterrupt : Nat := 0x20

/-! ## The memory space (R73 to R77) -/

/-- Where an address lies: an offset in local memory, the scratch region or the Cave window. -/
inductive Place where
  | localMem (a : Nat)
  | scratch (off : Nat)
  | cave (off : Nat)
deriving DecidableEq, Repr

/-- The base of the Press scratch window (R73). -/
def scratchBase : Nat := 0x10000000
/-- The base of the Cave window (R73). -/
def caveBase : Nat := 0x1000000000
/-- Bytes of one Cave channel. -/
def chanBytes : Nat := 0x600000000

/-- The implemented range of R73 that holds an address: its first address and its size. -/
def rangeOf (e a : Nat) : Option (Nat × Nat) :=
  if e = eTriad then
    if a < 0x2000000 then some (0, 0x2000000)
    else if scratchBase ≤ a ∧ a < scratchBase + 0x1000000 then some (scratchBase, 0x1000000)
    else if caveBase ≤ a ∧ a < caveBase + 8 * chanBytes then some (caveBase, 8 * chanBytes)
    else none
  else if e = eTime then if a < 0x80000 then some (0, 0x80000) else none
  else if e = eStarter then
    if a < 0x20000 then some (0, 0x20000)
    else if 0x100000 ≤ a ∧ a < 0x140000 then some (0x100000, 0x40000) else none
  else if a < 0x40000 then some (0, 0x40000) else none

/-- The place of an address of an engine; none outside the ranges of R73. -/
def placeOf (e a : Nat) : Option Place :=
  match rangeOf e a with
  | none => none
  | some _ =>
    if e = eTriad ∧ caveBase ≤ a then some (.cave (a - caveBase))
    else if e = eTriad ∧ scratchBase ≤ a then some (.scratch (a - scratchBase))
    else some (.localMem a)

/-- The pool buffer that holds a Cave window offset: pool 5 or pool 6 storage only (R76, R255). -/
def caveBuffer (s : State) (off : Nat) : Option Nat :=
  let c := off / chanBytes
  let r := off % chanBytes
  let top := chanBytes - 0x8000000
  if r / 4096 < pool5Per s then some (handle 5 (c * 6291456 + r / 4096))
  else if r < top ∧ top - pool6Per s * 0x200000 ≤ r then some (handle 6 (c * 768 + (top - 1 - r) / 0x200000))
  else none

/-- The pool buffer that holds a scratch offset (R253). -/
def scratchBuffer (s : State) (off : Nat) : Nat :=
  let p := segPool s (off / 65536)
  handle p (off / bufSize p)

/-- The Cave window offset of a pool 5 or pool 6 buffer's first byte (R252, R255). -/
def caveOffset (h : Nat) : Nat :=
  if hPool h = 5 then hIdx h / 6291456 * chanBytes + hIdx h % 6291456 * 4096
  else (hIdx h / 768 + 1) * chanBytes - 0x8000000 - (hIdx h % 768 + 1) * 0x200000

/-- The buffer of an address for R105: its first address and its size; none where no engine access reaches it. -/
def bufferAt (s : State) (e a : Nat) : Option (Nat × Nat) :=
  match placeOf e a with
  | none => none
  | some (.localMem _) => rangeOf e a
  | some (.scratch off) =>
    let p := segPool s (off / 65536)
    some (scratchBase + off / bufSize p * bufSize p, bufSize p)
  | some (.cave off) =>
    match caveBuffer s off with
    | none => none
    | some h => if (chan s (off / chanBytes)).ready then some (caveBase + caveOffset h, bufSize (hPool h)) else none

/-- The pool buffer an address lies in, when it lies in one. -/
def poolBufferAt (s : State) (e a : Nat) : Option Nat :=
  match placeOf e a with
  | some (.scratch off) => some (scratchBuffer s off)
  | some (.cave off) => caveBuffer s off
  | _ => none

/-- The rights of R75, numbered as `Config.regionBit` takes them. -/
inductive Right where
  | read | write | exec
deriving DecidableEq, Repr

/-- The number of a right. -/
def Right.num : Right → Nat
  | .read => 0 | .write => 1 | .exec => 2

/-- The limit, a region's last byte, of a limit-and-rights word (R75, notes/assumptions 13). -/
def regionLimitOf (w : Word64) : Nat :=
  ((List.range 64).map (fun k =>
    let p := Sys2Proof.Config.regionBit k
    if w.getLsbD p || decide (64 ≤ p) then 2 ^ k else 0)).foldl (· + ·) 0

/-- Whether a limit-and-rights word grants a tier a right (R75, notes/assumptions 13). -/
def regionRightOf (w : Word64) (tier : Nat) (r : Right) : Bool :=
  w.getLsbD (Sys2Proof.Config.regionBit (64 + 3 * tier + r.num) % 64)

/-- Whether some region covers [a, a+n) and grants the tier the right (R75). -/
def regionGrants (x : Engine) (tier : Nat) (r : Right) (a n : Nat) : Bool :=
  (List.range 16).any (fun i =>
    let w := mget 0 x.regionLimit i
    decide ((mget 0 x.regionBase i).toNat ≤ a) && decide (a + n ≤ regionLimitOf w + 1) && regionRightOf w tier r)

/-- Rights and holding of a range that lies in one buffer (R74 to R76): the trap it takes, if any. -/
def rightsFault (s : State) (e : Nat) (r : Right) (a n : Nat) : Option (Nat × Nat) :=
  let x := engine s e
  if e = eStarter ∧ r = .write ∧ a < 0x20000 then some (causeRegion, a)
  else if e = eTriad ∧ tierOf s e ≠ 0 then
    if regionGrants x (tierOf s e) r a n then
      match poolBufferAt s e a with
      | some h => if holdsBuffer s (x.owner.toNat % 2 ^ 32) h then none else some (causeNotHeld, a)
      | none => none
    else some (causeRegion, a)
  else none

/-- The channels whose own copy of a byte of a range of Triad SRAM fails parity (R85). -/
def badCores (s : State) (a n : Nat) : Nat :=
  (s.triad.coreParity.filter (fun p => decide (a ≤ p.2) && decide (p.2 < a + n))).foldl (fun m p => m ||| 2 ^ p.1) 0

/-- Whether a byte of local memory in the range fails parity on a read or fetch; on the Triad in all three copies (R84,
R85). -/
def parityFault (s : State) (e : Nat) (a n : Nat) : Option (Nat × Nat) :=
  match placeOf e a with
  | some (.localMem _) => if (engine s e).badParity.any (fun b => decide (a ≤ b) && decide (b < a + n)) then
      some (causeParity, a) else none
  | _ => none

/-- A Triad core that reads a byte whose parity fails in its copy alone goes on with a wrong value (R85): its next
output will differ. -/
def noteCores (e a n : Nat) (s : State) : State :=
  if e ≠ eTriad ∨ s.triad.coreParity = [] then s
  else { s with triad := { s.triad with dissent := s.triad.dissent ||| badCores s a n } }

/-- The trap of one aligned access of n bytes, if any: alignment, range, rights, holding, parity (R74 to R76). -/
def accessFault (s : State) (e : Nat) (r : Right) (a n : Nat) : Option (Nat × Nat) :=
  if a % n ≠ 0 then some (if r = .exec then causeFetchAlign else causeDataAlign, a)
  else match bufferAt s e a with
    | none => some (causeRange, a)
    | some _ => match rightsFault s e r a n with
      | some f => some f
      | none => if r = .write then none else parityFault s e a n

/-- The trap of a whole range of n bytes, if any (R105). -/
def spanFault (s : State) (e : Nat) (r : Right) (a n : Nat) : Option (Nat × Nat) :=
  if n = 0 then none
  else match bufferAt s e a with
    | none => some (causeLength, a)
    | some b =>
      if b.1 + b.2 < a + n then some (causeLength, b.1 + b.2)
      else match rightsFault s e r a n with
        | some f => some f
        | none => if r = .write then none else parityFault s e a n

/-- The bytes of a checked range. -/
def loadBytes (s : State) (e : Nat) (a n : Nat) : List Byte :=
  match placeOf e a with
  | some (.localMem _) => memRead (engine s e).mem a n
  | some (.scratch off) => memRead s.press.scratch off n
  | some (.cave off) => memRead s.cave.mem off n
  | none => []

/-- Store bytes into a checked range. -/
def storeBytes (e : Nat) (a : Nat) (bs : List Byte) (s : State) : State :=
  match placeOf e a with
  | some (.localMem _) =>
    let x := engine s e
    let s1 := if e = eTriad ∧ s.triad.coreParity ≠ [] then
        { s with triad := { s.triad with
          coreParity := s.triad.coreParity.filter (fun p => !(decide (a ≤ p.2) && decide (p.2 < a + bs.length))) } }
      else s
    setEngine e { x with
      mem := memWrite x.mem a bs
      badParity := x.badParity.filter (fun b => !(decide (a ≤ b) && decide (b < a + bs.length))) } s1
  | some (.scratch off) => { s with press := { s.press with scratch := memWrite s.press.scratch off bs } }
  | some (.cave off) => { s with cave := { s.cave with mem := memWrite s.cave.mem off bs } }
  | none => s

/-! ## The frame of an instruction -/

/-- Whether an engine starts instructions: it runs, and the Triad is not stalled in a resync (R439). -/
def canRun (s : State) (e : Nat) : Bool :=
  decide ((engine s e).run = .running) && !(decide (e = eTriad) && triadStalled s)

/-- Whether an instruction ended in a trap or a double fault and did not retire. -/
def trapped (e : Nat) (s s1 : State) : Bool :=
  (bitOf (engine s1 e).status.toNat 6 && !bitOf (engine s e).status.toNat 6) || decide ((engine s1 e).run = .halted)

/-- Count an instruction that retired (R510). -/
def retire (e : Nat) (s s1 : State) : State :=
  if trapped e s s1 then s1 else perfEvent { code := 0x050, master := engineMaster e, tier := some (tierOf s e) } s1

/-- One instruction: nothing where the engine does not run, the fetch's trap (R73 to R76, R84), or its effect. -/
def runInstr (e : EngineId) (body : State → State) (s : State) : State :=
  if canRun s e then
    match accessFault s e .exec (engine s e).pc.toNat 4 with
    | some f => takeTrap e f.1 (BitVec.ofNat 64 f.2) (engine s e).pc s
    | none => retire e s (body (noteCores e (engine s e).pc.toNat 4 s))
  else s

/-- An instruction that writes one value to kd and continues. -/
def runAlu (e : EngineId) (kd : KReg) (v : State → Word64) (s : State) : State :=
  runInstr e (fun s => advance e (kset e kd (v s) s)) s

/-- Continue at a target, which must be a multiple of 4 (R118). -/
def jumpTo (e : EngineId) (target : Word64) (s : State) : State :=
  if target.toNat % 4 = 0 then setPc e target s else trapHere e causeFetchAlign target s

/-! ## Device groups (R66, R72) -/

/-- The device groups of R65 and R72. -/
inductive Group where
  | tbl | vat | q | timeRead | timeSet | epoch | ctr | faultRaise | faultDeclare | audit
deriving DecidableEq, Repr

/-- Whether a group is available on an engine (R65). -/
def groupOn (e : Nat) : Group → Bool
  | .faultRaise => true
  | .faultDeclare => true
  | .timeRead => e ≤ 1
  | .timeSet => e ≤ 1
  | _ => e = 0

/-- Whether a tier may execute a group (R72). -/
def groupTier (tier : Nat) : Group → Bool
  | .timeRead => true
  | .timeSet => tier = 0
  | .faultDeclare => tier = 0
  | _ => tier ≤ 1

/-- A device instruction's result: code in [7:0], value from bit 16 (R122). -/
def result (code value : Nat) : Word64 := BitVec.ofNat 64 (code + value % 2 ^ 48 * 2 ^ 16)

/-- Result codes (R122). -/
def rOk : Nat := 0x00
/-- See `rOk`. -/
def rEmpty : Nat := 0x01
/-- See `rOk`. -/
def rNotOwner : Nat := 0x02
/-- See `rOk`. -/
def rNotHeld : Nat := 0x03
/-- See `rOk`. -/
def rIsLastOwner : Nat := 0x04
/-- See `rOk`. -/
def rNotFound : Nat := 0x05
/-- See `rOk`. -/
def rFull : Nat := 0x06
/-- See `rOk`. -/
def rNotStaged : Nat := 0x07
/-- See `rOk`. -/
def rPending : Nat := 0x08
/-- See `rOk`. -/
def rBusy : Nat := 0x09
/-- See `rOk`. -/
def rRange : Nat := 0x0A
/-- See `rOk`. -/
def rLate : Nat := 0x0B
/-- See `rOk`. -/
def rRefused : Nat := 0x0C
/-- See `rOk`. -/
def rNone : Nat := 0x0D
/-- See `rOk`. -/
def rStatic : Nat := 0x0E
/-- See `rOk`. -/
def rNotReady : Nat := 0x0F

/-- How a device operation ends: a trap, or a result (or a full register value) and the state after it. -/
inductive DevOut where
  | trap (cause tval : Nat)
  | done (kd : Word64) (s : State)

/-- A device instruction: availability (R66), tier (R72), its operation, its result in kd (R122). -/
def runDev (e : EngineId) (g : Group) (word : BitVec 32) (kd : KReg) (op : State → DevOut) (s : State) : State :=
  runInstr e (fun s =>
    if !groupOn e g then trapHere e causeGroup (word.setWidth 64) s
    else if !groupTier (tierOf s e) g then trapHere e causeTier (word.setWidth 64) s
    else
      let v := voteOutput e .agree 1 word.toNat s
      if ¬ v.1 then v.2
      else match op v.2 with
      | .trap c x => trapHere e c (BitVec.ofNat 64 x) v.2
      | .done x s1 => advance e (kset e kd x
          (perfEvent { code := 0x052, master := engineMaster e, tier := some (tierOf s e) } s1))) s

/-- KC_OWNER's owner name (R257). -/
def ownerOf (s : State) (e : Nat) : Nat := (engine s e).owner.toNat % 2 ^ 32

end Sys2Proof.Machine
end

