-- ==== Sys2Proof/Machine/Operands.lean ====
section
/-!
DEFINITION. The operand forms of Krenus-C: effective addresses, branch offsets, extensions, the immediate shifts
(R116 to R118).
-/
namespace Sys2Proof.Machine

/-- The address of a load, store, LDC or STC: ka plus the sign-extended off16 (R117, R120). -/
def effAddr (base : Word64) (off : BitVec 16) : Word64 := base + off.signExtend 64

/-- The distance of a taken branch: 4 × sign-extended off16 (R118). -/
def branchOff (off : BitVec 16) : Word64 := off.signExtend 64 * 4

/-- A loaded number zero-extended. -/
def zext (v : Nat) : Word64 := BitVec.ofNat 64 v

/-- A loaded number of `w` bits sign-extended. -/
def sext (w : Nat) (v : Nat) : Word64 := (BitVec.ofNat w v).signExtend 64

/-- SHI's operation: 0 SHL, 1 SHR, 2 SAR, 3 rotate right (R116). -/
def shiftImm (sel amount : Nat) (v : Word64) : Word64 :=
  match sel with
  | 0 => v <<< amount
  | 1 => v >>> amount
  | 2 => v.sshiftRight amount
  | _ => v.rotateRight amount

end Sys2Proof.Machine
end

