-- ==== Sys2Proof/Machine/Arith.lean ====
section
/-!
DEFINITION. Krenus-C arithmetic and logic, register and immediate forms (R115, R116). No arithmetic instruction
traps; each writes kd and continues at the next instruction.
-/
namespace Sys2Proof.Machine

/-- ADD kd, ka, kb (R115). -/
def execAdd (e : EngineId) (kd ka kb : KReg) (s : State) : Host.Outcome State Fault Refusal :=
  .next (runAlu e kd (fun s => kget s e ka + kget s e kb) s)

/-- SUB kd, ka, kb (R115). -/
def execSub (e : EngineId) (kd ka kb : KReg) (s : State) : Host.Outcome State Fault Refusal :=
  .next (runAlu e kd (fun s => kget s e ka - kget s e kb) s)

/-- AND kd, ka, kb (R115). -/
def execAnd (e : EngineId) (kd ka kb : KReg) (s : State) : Host.Outcome State Fault Refusal :=
  .next (runAlu e kd (fun s => kget s e ka &&& kget s e kb) s)

/-- OR kd, ka, kb (R115). -/
def execOr (e : EngineId) (kd ka kb : KReg) (s : State) : Host.Outcome State Fault Refusal :=
  .next (runAlu e kd (fun s => kget s e ka ||| kget s e kb) s)

/-- XOR kd, ka, kb (R115). -/
def execXor (e : EngineId) (kd ka kb : KReg) (s : State) : Host.Outcome State Fault Refusal :=
  .next (runAlu e kd (fun s => kget s e ka ^^^ kget s e kb) s)

/-- SHL kd, ka, kb (R115). -/
def execShl (e : EngineId) (kd ka kb : KReg) (s : State) : Host.Outcome State Fault Refusal :=
  .next (runAlu e kd (fun s => kget s e ka <<< ((kget s e kb).toNat % 64)) s)

/-- SHR kd, ka, kb (R115). -/
def execShr (e : EngineId) (kd ka kb : KReg) (s : State) : Host.Outcome State Fault Refusal :=
  .next (runAlu e kd (fun s => kget s e ka >>> ((kget s e kb).toNat % 64)) s)

/-- SAR kd, ka, kb (R115). -/
def execSar (e : EngineId) (kd ka kb : KReg) (s : State) : Host.Outcome State Fault Refusal :=
  .next (runAlu e kd (fun s => (kget s e ka).sshiftRight ((kget s e kb).toNat % 64)) s)

/-- SLT kd, ka, kb (R115). -/
def execSlt (e : EngineId) (kd ka kb : KReg) (s : State) : Host.Outcome State Fault Refusal :=
  .next (runAlu e kd (fun s => if (kget s e ka).slt (kget s e kb) then 1 else 0) s)

/-- SLTU kd, ka, kb (R115). -/
def execSltu (e : EngineId) (kd ka kb : KReg) (s : State) : Host.Outcome State Fault Refusal :=
  .next (runAlu e kd (fun s => if (kget s e ka).ult (kget s e kb) then 1 else 0) s)

/-- MUL kd, ka, kb (R115). -/
def execMul (e : EngineId) (kd ka kb : KReg) (s : State) : Host.Outcome State Fault Refusal :=
  .next (runAlu e kd (fun s => kget s e ka * kget s e kb) s)

/-- MULHU kd, ka, kb (R115). -/
def execMulhu (e : EngineId) (kd ka kb : KReg) (s : State) : Host.Outcome State Fault Refusal :=
  .next (runAlu e kd (fun s => mulHigh (kget s e ka) (kget s e kb)) s)

/-- DIVU kd, ka, kb (R115). -/
def execDivu (e : EngineId) (kd ka kb : KReg) (s : State) : Host.Outcome State Fault Refusal :=
  .next (runAlu e kd (fun s => divU (kget s e ka) (kget s e kb)) s)

/-- REMU kd, ka, kb (R115). -/
def execRemu (e : EngineId) (kd ka kb : KReg) (s : State) : Host.Outcome State Fault Refusal :=
  .next (runAlu e kd (fun s => remU (kget s e ka) (kget s e kb)) s)

/-- DIV kd, ka, kb (R115). -/
def execDiv (e : EngineId) (kd ka kb : KReg) (s : State) : Host.Outcome State Fault Refusal :=
  .next (runAlu e kd (fun s => divS (kget s e ka) (kget s e kb)) s)

/-- REM kd, ka, kb (R115). -/
def execRem (e : EngineId) (kd ka kb : KReg) (s : State) : Host.Outcome State Fault Refusal :=
  .next (runAlu e kd (fun s => remS (kget s e ka) (kget s e kb)) s)

/-- CRC32C kd, ka, kb (R115). -/
def execCrc32c (e : EngineId) (kd ka kb : KReg) (s : State) : Host.Outcome State Fault Refusal :=
  .next (runAlu e kd (fun s => crcOf (kget s e ka) (kget s e kb)) s)

/-- POPC kd, ka (R115). -/
def execPopc (e : EngineId) (kd ka : KReg) (s : State) : Host.Outcome State Fault Refusal :=
  .next (runAlu e kd (fun s => popCount (kget s e ka)) s)

/-- CLZ kd, ka (R115). -/
def execClz (e : EngineId) (kd ka : KReg) (s : State) : Host.Outcome State Fault Refusal :=
  .next (runAlu e kd (fun s => leadZeros (kget s e ka)) s)

/-- CTZ kd, ka (R115). -/
def execCtz (e : EngineId) (kd ka : KReg) (s : State) : Host.Outcome State Fault Refusal :=
  .next (runAlu e kd (fun s => trailZeros (kget s e ka)) s)

/-- BSWAP kd, ka (R115). -/
def execBswap (e : EngineId) (kd ka : KReg) (s : State) : Host.Outcome State Fault Refusal :=
  .next (runAlu e kd (fun s => byteSwap (kget s e ka)) s)

/-- ADDI kd, ka, imm16 (R116). -/
def execAddi (e : EngineId) (kd ka : KReg) (imm : BitVec 16) (s : State) : Host.Outcome State Fault Refusal :=
  .next (runAlu e kd (fun s => kget s e ka + imm.signExtend 64) s)

/-- ANDI kd, ka, imm16 (R116). -/
def execAndi (e : EngineId) (kd ka : KReg) (imm : BitVec 16) (s : State) : Host.Outcome State Fault Refusal :=
  .next (runAlu e kd (fun s => kget s e ka &&& imm.setWidth 64) s)

/-- ORI kd, ka, imm16 (R116). -/
def execOri (e : EngineId) (kd ka : KReg) (imm : BitVec 16) (s : State) : Host.Outcome State Fault Refusal :=
  .next (runAlu e kd (fun s => kget s e ka ||| imm.setWidth 64) s)

/-- XORI kd, ka, imm16 (R116). -/
def execXori (e : EngineId) (kd ka : KReg) (imm : BitVec 16) (s : State) : Host.Outcome State Fault Refusal :=
  .next (runAlu e kd (fun s => kget s e ka ^^^ imm.setWidth 64) s)

/-- SHI kd, ka, imm16: imm[7:6] selects the shift, imm[5:0] is the amount (R116). -/
def execShi (e : EngineId) (kd ka : KReg) (imm : BitVec 8) (s : State) : Host.Outcome State Fault Refusal :=
  .next (runAlu e kd (fun s => shiftImm (imm.toNat / 64) (imm.toNat % 64) (kget s e ka)) s)

/-- LUI kd, imm21: sign-extended, shifted left by 16 (R116). -/
def execLui (e : EngineId) (kd : KReg) (imm : BitVec 21) (s : State) : Host.Outcome State Fault Refusal :=
  .next (runAlu e kd (fun _ => imm.signExtend 64 <<< 16) s)

end Sys2Proof.Machine
end

