-- ==== Sys2Proof/Machine/LoadStore.lean ====
section
/-!
DEFINITION. Krenus-C loads and stores (R117): the address is ka plus the sign-extended offset; loads ending in S
sign-extend and the others zero-extend; a store writes kd's low bytes.
-/
namespace Sys2Proof.Machine

/-- A load of n bytes. -/
def runLoad (e : EngineId) (kd ka : KReg) (off : BitVec 16) (n : Nat) (ext : Nat → Word64) (s : State) : State :=
  runInstr e (fun s =>
    let a := (effAddr (kget s e ka) off).toNat
    match accessFault s e .read a n with
    | some f => trapHere e f.1 (BitVec.ofNat 64 f.2) s
    | none => advance e (kset e kd (ext (leNat (loadBytes s e a n))) (noteCores e a n s))) s

/-- The output kind of a Triad store: 3 into its SRAM, 2 elsewhere (R446). -/
def storeKind (e a : Nat) : Nat :=
  match placeOf e a with
  | some (.localMem _) => 3
  | _ => 2

/-- A store of n bytes; the Triad's is voted first (R437). -/
def runStore (e : EngineId) (kd ka : KReg) (off : BitVec 16) (n : Nat) (vote : Vote) (s : State) : State :=
  runInstr e (fun s =>
    let a := (effAddr (kget s e ka) off).toNat
    match accessFault s e .write a n with
    | some f => trapHere e f.1 (BitVec.ofNat 64 f.2) s
    | none =>
      let v := voteOutput e vote (storeKind e a) a s
      if v.1 then advance e (storeBytes e a (leBytes n (kget s e kd).toNat) v.2) else v.2) s

/-- LD.B kd, off(ka) (R117). -/
def execLdB (e : EngineId) (kd ka : KReg) (off : BitVec 16) (s : State) : Host.Outcome State Fault Refusal :=
  .next (runLoad e kd ka off 1 (zext) s)

/-- LD.H kd, off(ka) (R117). -/
def execLdH (e : EngineId) (kd ka : KReg) (off : BitVec 16) (s : State) : Host.Outcome State Fault Refusal :=
  .next (runLoad e kd ka off 2 (zext) s)

/-- LD.W kd, off(ka) (R117). -/
def execLdW (e : EngineId) (kd ka : KReg) (off : BitVec 16) (s : State) : Host.Outcome State Fault Refusal :=
  .next (runLoad e kd ka off 4 (zext) s)

/-- LD.D kd, off(ka) (R117). -/
def execLdD (e : EngineId) (kd ka : KReg) (off : BitVec 16) (s : State) : Host.Outcome State Fault Refusal :=
  .next (runLoad e kd ka off 8 (zext) s)

/-- LD.BS kd, off(ka) (R117). -/
def execLdBs (e : EngineId) (kd ka : KReg) (off : BitVec 16) (s : State) : Host.Outcome State Fault Refusal :=
  .next (runLoad e kd ka off 1 (sext 8) s)

/-- LD.HS kd, off(ka) (R117). -/
def execLdHs (e : EngineId) (kd ka : KReg) (off : BitVec 16) (s : State) : Host.Outcome State Fault Refusal :=
  .next (runLoad e kd ka off 2 (sext 16) s)

/-- LD.WS kd, off(ka) (R117). -/
def execLdWs (e : EngineId) (kd ka : KReg) (off : BitVec 16) (s : State) : Host.Outcome State Fault Refusal :=
  .next (runLoad e kd ka off 4 (sext 32) s)

/-- ST.B kd, off(ka) (R117). -/
def execStB (e : EngineId) (kd ka : KReg) (off : BitVec 16) (vote : Vote) (s : State) :
    Host.Outcome State Fault Refusal :=
  .next (runStore e kd ka off 1 vote s)

/-- ST.H kd, off(ka) (R117). -/
def execStH (e : EngineId) (kd ka : KReg) (off : BitVec 16) (vote : Vote) (s : State) :
    Host.Outcome State Fault Refusal :=
  .next (runStore e kd ka off 2 vote s)

/-- ST.W kd, off(ka) (R117). -/
def execStW (e : EngineId) (kd ka : KReg) (off : BitVec 16) (vote : Vote) (s : State) :
    Host.Outcome State Fault Refusal :=
  .next (runStore e kd ka off 4 vote s)

/-- ST.D kd, off(ka) (R117). -/
def execStD (e : EngineId) (kd ka : KReg) (off : BitVec 16) (vote : Vote) (s : State) :
    Host.Outcome State Fault Refusal :=
  .next (runStore e kd ka off 8 vote s)

/-- COPY ka, kb, kc: kc[15:0] bytes from kb to ka, as they stood before (R105, R106, R121). -/
def execCopy (e : EngineId) (ka kb kc : KReg) (s : State) : Host.Outcome State Fault Refusal :=
  .next (runInstr e (fun s =>
    let dst := (kget s e ka).toNat
    let src := (kget s e kb).toNat
    let n := (kget s e kc).toNat % 65536
    if 65536 ≤ (kget s e kc).toNat then trapHere e causeLength (kget s e ka + 65536) s
    else if n = 0 then advance e s
    else match spanFault s e .read src n with
      | some f => trapHere e f.1 (BitVec.ofNat 64 f.2) s
      | none => match spanFault s e .write dst n with
        | some f => trapHere e f.1 (BitVec.ofNat 64 f.2) s
        | none =>
          let v := voteOutput e .agree (storeKind e dst) dst (noteCores e src n s)
          if v.1 then advance e (storeBytes e dst (loadBytes s e src n) v.2) else v.2) s)

end Sys2Proof.Machine
end

