-- ==== Sys2Proof/Machine/Frames.lean ====
section
/-!
DEFINITION. Frames in the unit: the Rind's bytes (R170), descriptors and their images (R268, R269), chains of
Press cells, and the end of a descriptor with its hold (R260). Epoch comparison (R355) and port existence (R390).
-/
namespace Sys2Proof.Machine

/-! ## The Rind and the descriptor image -/

/-- The 40 bytes of a Rind, in network byte order (R8, R170). -/
def Rind.bytes (r : Rind) : List Byte :=
  beBytes 4 (r.version * 2 ^ 30 + r.dropPrec * 2 ^ 28 + r.kind * 2 ^ 26 + r.sourceUnit * 2 ^ 16
    + r.incarnation * 2 ^ 8 + r.egressSlot)
  ++ beBytes 4 (r.queue * 2 ^ 12 + r.ingressPort) ++ beBytes 4 r.sequence ++ beBytes 2 r.epoch
  ++ beBytes 2 (r.length * 4) ++ beBytes 8 r.seconds ++ beBytes 4 r.nanoseconds ++ beBytes 2 r.fraction
  ++ beBytes 2 (r.profile * 2 ^ 7 + r.mirrorSession * 2) ++ beBytes 4 r.flowHash ++ beBytes 2 r.metadata
  ++ beBytes 2 (r.copyIndex * 2 ^ 7)

/-- The big-endian number of n bytes at an offset. -/
def beAt (bs : List Byte) (i n : Nat) : Nat := beNat (bytesAt bs i n)
/-- The little-endian number of n bytes at an offset. -/
def leAt (bs : List Byte) (i n : Nat) : Nat := leNat (bytesAt bs i n)

/-- The Rind that 40 bytes hold; reserved bits are ignored (R171). -/
def Rind.parse (bs : List Byte) : Rind :=
  let w0 := beAt bs 0 4
  let w1 := beAt bs 4 4
  let pm := beAt bs 30 2
  { version := fieldOf w0 31 30, dropPrec := fieldOf w0 29 28, kind := fieldOf w0 27 26
    sourceUnit := fieldOf w0 25 16, incarnation := fieldOf w0 15 8, egressSlot := fieldOf w0 5 0
    queue := fieldOf w1 31 12, ingressPort := fieldOf w1 8 0, sequence := beAt bs 8 4
    epoch := beAt bs 12 2, length := beAt bs 14 2 / 4, seconds := beAt bs 16 8
    nanoseconds := beAt bs 24 4, fraction := beAt bs 28 2, profile := fieldOf pm 15 7
    mirrorSession := fieldOf pm 6 1, flowHash := beAt bs 32 4, metadata := beAt bs 36 2
    copyIndex := fieldOf (beAt bs 38 2) 15 7 }

/-- A 64-byte descriptor image; `shared` is 1 when the chain has more than one hold (R268). -/
def Desc.bytes (d : Desc) (shared : Bool) : List Byte :=
  d.rind.bytes ++ leBytes 4 (d.firstCell + d.cellCount * 2 ^ 21) ++ leBytes 4 d.next
  ++ leBytes 4 (d.holderQueue + b2n shared * 2 ^ 20) ++ List.replicate 12 0

/-- The descriptor that a 64-byte image holds. -/
def Desc.parse (bs : List Byte) : Desc :=
  let w := leAt bs 40 4
  { rind := Rind.parse bs, firstCell := fieldOf w 20 0, cellCount := fieldOf w 27 21
    next := leAt bs 44 4 % 2 ^ 21, holderQueue := leAt bs 48 4 % 2 ^ 20 }

/-! ## Chains -/

/-- No cell, no descriptor, the end of a chain or a list (R268). -/
def noLink : Nat := 0x1FFFFF

/-- The link word of a cell. -/
def linkOf (s : State) (c : Nat) : Nat := mget noLink s.press.link c

/-- n cells from the first along the link words; shorter where a link word ends the chain early. -/
def chainCells (s : State) : Nat → Nat → List Nat
  | 0, _ => []
  | n + 1, c => if c = noLink then [] else c :: chainCells s n (linkOf s c)

/-- Cells of a frame of L bytes. -/
def cellsFor (len : Nat) : Nat := (len + 255) / 256

/-- Whether a descriptor is right (R269). -/
def descOk (s : State) (d : Desc) : Bool :=
  1 ≤ d.cellCount && d.cellCount ≤ 64 && d.cellCount = cellsFor d.rind.length
    && (chainCells s d.cellCount d.firstCell).length = d.cellCount

/-- Whether a byte of a frame's descriptor, of a cell of its chain or of a link word fails parity (R268, R269). -/
def frameBad (s : State) (d : Desc) : Bool :=
  d.bad || (chainCells s d.cellCount d.firstCell).any (fun c => s.press.bad.contains c)

/-- The frame's bytes: its chain's cells, cut at frame_length. -/
def frameBytes (s : State) (d : Desc) : List Byte :=
  ((chainCells s d.cellCount d.firstCell).flatMap (fun c => memRead s.press.cells (256 * c) 256)).take d.rind.length

/-- Write a frame's bytes into cells and link them. -/
def writeChain : List Nat → List Byte → Press → Press
  | [], _, p => p
  | c :: cs, bs, p =>
    writeChain cs (bs.drop 256)
      { p with
        cells := memWrite p.cells (256 * c) (bs.take 256)
        link := mset noLink p.link c (cs.headD noLink)
        bad := p.bad.filter (fun b => b != c) }

/-- A descriptor by pool 7 index. -/
def desc (s : State) (i : Nat) : Desc := mget {} s.descs i

/-- The state with a descriptor replaced. -/
def setDesc (i : Nat) (d : Desc) (s : State) : State := { s with descs := mset {} s.descs i d }

/-- A queue's owner name (R257). -/
def queueOwner (q : Nat) : Nat := ownerName 3 q

/-- Free a descriptor slot. -/
def freeDescSlot (i : Nat) (s : State) : State :=
  freeBuffer (handle 7 i) { s with descs := mdel s.descs i }

/-- The holder of a queued frame's hold: its mirror session, or its queue (R259). -/
def holderOf (d : Desc) : Nat :=
  if d.rind.kind = 2 then ownerName 6 d.rind.mirrorSession else queueOwner d.holderQueue

/-- The image of a descriptor in the unit, its shared bit as the holds of its chain stand (R268). -/
def descImage (s : State) (d : Desc) : List Byte :=
  d.bytes (match recordOf s (handle 0 d.firstCell) with
    | some r => decide (1 < r.holds)
    | none => false)

/-- The frame of a descriptor leaves its queue's hold, and the descriptor is freed in the same clock (R260). -/
def endDesc (i : Nat) (s : State) : State :=
  let d := desc s i
  freeDescSlot i (hwEndHold (holderOf d) (handle 0 d.firstCell) s)

/-- A hardware block meets a wrong descriptor: the frame is dropped, the descriptor freed, the chain not followed
(R269). -/
def dropWrongDesc (i port : Nat) (s : State) : State :=
  let d := desc s i
  freeDescSlot i (raiseAt (blockPlace .vat) Ev.descInvalid
    (satField 0 21 i + satField 21 7 d.cellCount + satField 28 20 d.holderQueue) d.rind.length
    (whey Wh.descriptorInvalid port s))

/-- Drop the frame of a descriptor under a Whey reason. -/
def dropDesc (i reason port : Nat) (s : State) : State :=
  if descOk s (desc s i) then endDesc i (whey reason port s) else dropWrongDesc i port s

/-- A claim of a frame's cells and descriptors in one: every buffer or none, with each pool that could not grant
its part counted (R263, R266). -/
def claimFrame (o len nDesc : Nat) (s : State) : Option (List Nat × List Nat) × State :=
  let n := cellsFor len
  let cls := ownerClass o
  if isDeclared s o then (none, countDeclaredDrop s)
  else
    let ok0 := canClaim s 0 cls n
    let ok7 := canClaim s 7 cls nDesc
    if ok0 ∧ ok7 then
      let r0 := takeMany 0 o n s
      let r7 := takeMany 7 o nDesc r0.2
      (some (r0.1, r7.1), claimEvent o true r7.2)
    else
      let s1 := if ok0 then s else countEmpty 0 s
      (none, claimEvent o false (if ok7 then s1 else countEmpty 7 s1))

/-- The Whey reason of a frame whose claim failed (R266). -/
def claimReason (o len : Nat) (s : State) : Nat :=
  if canClaim s 0 (ownerClass o) (cellsFor len) then Wh.noDescriptor else Wh.noCell

/-- Store a frame in claimed cells as one chain held by an owner. -/
def storeFrame (cells : List Nat) (bs : List Byte) (o : Nat) (s : State) : State :=
  makeChain cells o { s with press := writeChain cells bs s.press }

/-! ## Epochs (R58, R355) -/

/-- Whether epoch a is older than epoch b, modulo 2¹⁶ with a window of 2¹⁵ (R355). -/
def epochOlder (a b : Nat) : Bool := a % 65536 ≠ b % 65536 && (b + 65536 - a % 65536) % 65536 < 32768

/-- Whether this unit can still read the generation of an epoch (R60, R61). -/
def epochReadable (s : State) (ep : Nat) : Bool :=
  ep = s.epoch.live || (ep = (s.epoch.live + 65535) % 65536 && !s.epoch.shadowOpen)

/-- The epoch whose generation a decision uses: the frame's, or the live one where it is not readable (R284). -/
def readEpoch (s : State) (ep : Nat) : Nat := if epochReadable s ep then ep else s.epoch.live

/-! ## The port arrangement (R390, R391) -/

/-- The mode code of a lane in the generation of an epoch: 0 where the lane is no lowest lane. -/
def laneModeAt (s : State) (epoch n : Nat) : Nat :=
  rwlFieldAt s epoch .xbar (32 + 2 * (n / 16) + n % 16 / 8) (4 * (n % 8) + 3) (4 * (n % 8))

/-- The mode code of a lane in the arrangement its pipe runs under (R393). -/
def laneMode (s : State) (n : Nat) : Nat := laneModeAt s (pipeEp s (n / 16)) n

/-- Whether a lane is the lowest lane of a network port of the live arrangement. -/
def portExists (s : State) (n : Nat) : Bool := 1 ≤ laneMode s n && laneMode s n ≤ 0xC

/-- Lanes of a port mode (R390). -/
def modeLanes : Nat → Nat
  | 0x1 => 1 | 0x2 => 2 | 0x3 => 4 | 0x4 => 2 | 0x5 => 1 | 0x6 => 8 | 0x7 => 4 | 0x8 => 2
  | 0x9 => 8 | 0xA => 4 | 0xB => 8 | 0xC => 4 | _ => 0

/-- Lane rate code of a port mode: 0 53.125, 1 106.25, 2 212.5, 3 425 Gb/s (R390). -/
def modeRate : Nat → Nat
  | 0x1 => 1 | 0x2 => 0 | 0x3 => 0 | 0x4 => 1 | 0x5 => 2 | 0x6 => 0 | 0x7 => 1 | 0x8 => 2
  | 0x9 => 1 | 0xA => 2 | 0xB => 2 | 0xC => 3 | _ => 0

/-- MAC payload rate of a port mode in Mb/s (R5, R390). -/
def modeMbps : Nat → Nat
  | 0x1 => 100000 | 0x2 => 100000 | 0x3 => 200000 | 0x4 => 200000 | 0x5 => 200000
  | 0x6 => 400000 | 0x7 => 400000 | 0x8 => 400000 | 0x9 => 800000 | 0xA => 800000
  | 0xB => 1600000 | 0xC => 1600000 | _ => 0

end Sys2Proof.Machine
end

