-- ==== Sys2Proof/Machine/Flash.lean ====
section
/-!
DEFINITION. What the serial memory holds (R473): images under R101, slot directories (R496, R497) and settings sets
(R474 to R476), read as bytes.
-/
namespace Sys2Proof.Machine

/-! ## The memory (R472, R473, R500) -/

/-- Bytes of the serial memory. -/
def flashRead (s : State) (off n : Nat) : List Byte := (memRead s.flash.cells off n).map (fun b => ~~~ b)

/-- Program bytes. -/
def flashProgram (off : Nat) (bs : List Byte) (s : State) : State :=
  { s with flash := { s.flash with cells := memWrite s.flash.cells off (bs.map (fun b => ~~~ b)) } }

/-- Erase a range: every byte of it reads 0xFF. -/
def flashErase (off n : Nat) (s : State) : State :=
  { s with flash := { s.flash with cells := s.flash.cells.filter (fun c => !(decide (off ≤ c.1) && decide (c.1 < off + n))) } }

/-- The offset of an image slot: 0 CURRENT, 1 PREVIOUS, 2 factory. -/
def slotBase (slot : Nat) : Nat := 0x100000 + slot * 0x1000000

/-- Bytes of an image slot. -/
def slotSize : Nat := 0x1000000

/-- The offset of a half of the Pyke store. -/
def halfBase (half : Nat) : Nat := 0x3100000 + half * 0x400000

/-- Bytes of a half of the Pyke store. -/
def halfSize : Nat := 0x400000

/-! ## Images (R101) -/

/-- The fields of an image header. -/
structure ImgHdr where
  magic : Nat := 0
  format : Nat := 0
  profile : Nat := 0
  tier : Nat := 0
  abi : Nat := 0
  entry : Nat := 0
  text : Nat := 0
  data : Nat := 0
  zero : Nat := 0
  version : Nat := 0
  crc : Nat := 0
deriving DecidableEq, Repr

/-- The header of an image. -/
def imgHdr (bs : List Byte) : ImgHdr :=
  { magic := leAt bs 0 4, format := leAt bs 4 2, profile := leAt bs 6 1, tier := leAt bs 7 1, abi := leAt bs 8 2,
    entry := leAt bs 12 4, text := leAt bs 16 4, data := leAt bs 20 4, zero := leAt bs 24 4, version := leAt bs 28 4,
    crc := leAt bs 60 4 }

/-- Whether the header of a Krenus-C image passes. -/
def ImgHdr.ok (h : ImgHdr) : Bool :=
  h.magic == 0x434E524B && h.format == 1 && h.profile == 0 && decide (h.tier ≤ 2) && h.text != 0 && decide (h.entry < h.text)

/-- Whether an image's CRC-32C matches. -/
def imgCrcOk (bs : List Byte) : Bool :=
  let h := imgHdr bs
  decide (64 + h.text + h.data ≤ bs.length) && crc32c 0 (bs.take 60 ++ (bs.drop 64).take (h.text + h.data)) == h.crc

/-- Bytes that an image takes in memory: text, data and zero-fill. -/
def ImgHdr.size (h : ImgHdr) : Nat := h.text + h.data + h.zero

/-- Where the next program would be placed in Triad SRAM. -/
def programBase (s : State) (h : ImgHdr) : Nat := Sys2Proof.Config.imageBase s.ctl.started.length h.size

/-- The check that a T1 or T2 image fails: 1 header, its abi included, 2 CRC-32C, 3 placement; 0 none (R101, R102,
R446; notes/assumptions 139). -/
def imageCheck (s : State) (bs : List Byte) : Nat :=
  let h := imgHdr bs
  if bs.length < 64 ∨ ¬ h.ok ∨ h.tier = 0 ∨ h.abi ≠ s.boot.fw.abi then 1
  else if ¬ imgCrcOk bs then 2
  else if ¬ Sys2Proof.Config.imagePlaced h.tier h.size ∨ 0x2000000 < programBase s h + h.size then 3
  else 0

/-- The limit-and-rights word that ends a region at `last` and gives a tier every right (R68, R75). -/
def regionWord (tier last : Nat) : Word64 :=
  BitVec.ofNat 64 (((List.range 64).filter (fun k => bitOf last k && decide (Sys2Proof.Config.regionBit k < 64))).foldl
    (fun w k => w ||| 2 ^ Sys2Proof.Config.regionBit k)
    ([64, 65, 66].foldl (fun w r => w ||| 2 ^ (Sys2Proof.Config.regionBit (3 * tier + r) % 64)) 0))

/-- T0 firmware places a program's text, data and zero-fill in Triad SRAM, grants its tier the region, and sets KC_OWNER
for it (R102, R257). -/
def placeProgram (bs : List Byte) (id : Nat) (s : State) : State :=
  let h := imgHdr bs
  let base := programBase s h
  let s1 := storeBytes eTriad base ((bs.drop 64).take (h.text + h.data) ++ List.replicate h.zero 0) s
  let x := engine s1 eTriad
  let r := Sys2Proof.Config.imageRegion s.ctl.started.length % 16
  let owner := ownerName 7 id
  setEngine eTriad { x with
      regionBase := mset 0 x.regionBase r (BitVec.ofNat 64 base)
      regionLimit := mset 0 x.regionLimit r (regionWord h.tier (base + h.size - 1))
      owner := BitVec.ofNat 64 owner }
    { s1 with ctl := { s1.ctl with started := s1.ctl.started ++ [{ image := bs, base := base, owner := owner }] } }

/-- T0 firmware starts a T1 or T2 image, or rejects it; the program identifier it gives is a free value (R102,
R257, R446). -/
def startImage (bs : List Byte) (s : State) : State :=
  match imageCheck s bs with
  | 0 => placeProgram bs ((freeDraw s).1.toNat % 2 ^ 16) (freeDraw s).2
  | c => raise .triad Ev.imageRejected (c + (imgHdr bs).tier % 4 * 2 ^ 4 + (freeDraw s).1.toNat % 2 ^ 16 * 2 ^ 6) (freeDraw s).2

/-- Start a list of images, first listed first. -/
def startImages : List (List Byte) → State → State
  | [], s => s
  | b :: bs, s => startImages bs (startImage b s)

/-- The image of an engine as its memory holds it: text and data at the load base, zero-fill after them. -/
def imageMemory (kind : Nat) (bs : List Byte) : Memory :=
  memWrite [] (Sys2Proof.Config.loadBase kind) ((bs.drop 64).take ((imgHdr bs).text + (imgHdr bs).data))

/-- An engine starts an image in T0 at its entry point (R480, R505). -/
def loadEngine (e kind : Nat) (bs : List Byte) (s : State) : State :=
  setEngine e {
    mem := imageMemory kind bs
    pc := BitVec.ofNat 64 (Sys2Proof.Config.loadBase kind + (imgHdr bs).entry)
    run := .running
    leftReset := s.now } s

/-! ## Slots (R496, R497) -/

/-- The first 4,096 bytes of a slot: its directory and signature. While an update holds back the magic of CURRENT, a
check of the update reads it as it was written (R500). -/
def slotHead (s : State) (slot : Nat) (held : Bool) : List Byte :=
  let bs := flashRead s (slotBase slot) 4096
  if held ∧ slot = 0 then s.upd.magic ++ bs.drop s.upd.magic.length else bs

/-- A directory, where its magic, format and dir_crc are correct. -/
def slotDirOf (bs : List Byte) : Option SlotDir :=
  if leAt bs 0 4 = 0x544C534B ∧ leAt bs 4 2 = 1 ∧ crc32c 0 (bs.take 3996) = leAt bs 3996 4 then
    some {
      settings := leAt bs 6 2, version := leAt bs 8 4, abi := leAt bs 12 2, skovMin := leAt bs 14 1,
      skovMax := leAt bs 15 1, stateExport := leAt bs 16 2, stateImport := leAt bs 18 2,
      images := [0, 1, 2].map (fun i =>
        (leAt bs (64 + 16 * i) 4, leAt bs (68 + 16 * i) 4, leAt bs (72 + 16 * i) 4, leAt bs (76 + 16 * i) 4)) }
  else none

/-- The directory of a slot. -/
def slotDir (s : State) (slot : Nat) : Option SlotDir := slotDirOf (slotHead s slot false)

/-- The bytes of a slot's image of a kind. -/
def slotImage (s : State) (slot : Nat) (d : SlotDir) (kind : Nat) : List Byte :=
  match d.images.find? (fun i => i.1 % 256 == kind) with
  | some i => flashRead s (slotBase slot + i.2.1) i.2.2.1
  | none => []

/-- The largest image of a kind (R497). -/
def imageLimit : Nat → Nat
  | 0 => 28 * 2 ^ 20 | 1 => 512 * 1024 | _ => 256 * 1024

/-- Whether one image of a slot passes (R497). -/
def slotImageOk (s : State) (slot : Nat) (d : SlotDir) (kind : Nat) : Bool :=
  match d.images.filter (fun i => i.1 % 256 == kind) with
  | [i] =>
    let bs := slotImage s slot d kind
    let h := imgHdr bs
    i.2.1 % 4 == 0 && decide (64 ≤ i.2.2.1) && decide (i.2.1 + i.2.2.1 ≤ slotSize) && decide (i.2.2.1 ≤ imageLimit kind)
      && h.ok && h.tier == 0 && imgCrcOk bs && h.crc == i.2.2.2
      && h.abi == (if kind = 1 then 0 else d.abi) && h.version / 2 ^ 16 == d.version / 2 ^ 16
  | _ => false

/-- Whether a slot with a directory is consistent. -/
def slotConsistent (s : State) (slot : Nat) (d : SlotDir) : Bool := [0, 1, 2].all (slotImageOk s slot d)

/-- Whether a slot's signature passes. -/
def slotSigned (s : State) (slot : Nat) (d : SlotDir) : Bool :=
  let head := slotHead s slot false
  Sys2Proof.Config.signatureOk (flashRead s 0 0x100000)
    (head.take 4000 ++ (d.images.flatMap (fun i => flashRead s (slotBase slot + i.2.1) i.2.2.1)))
    ((head.drop 4000).take 96)

/-- The Starter extension passes its check (R481). -/
def extensionOk (s : State) : Bool :=
  let bs := flashRead s 0 0x100000
  let h := imgHdr bs
  h.ok && h.tier == 0 && decide (64 + h.text + h.data ≤ 0x100000) && decide (h.text + h.data + h.zero ≤ 0x40000) && imgCrcOk bs

/-! ## Settings sets (R474 to R477) -/

/-- A record: its kind and payload. -/
abbrev SetRec := Nat × List Byte

/-- A settings set. -/
structure SetInfo where
  format : Nat := 0
  seq : Nat := 0
  bootDefault : Nat := 0
  base : List SetRec := []
  moulds : SMap (List SetRec) := []
deriving DecidableEq, Repr

/-- The records of an area, each wholly within it and of a kind valid there; `n` bounds their number. -/
def setRecs (inBase : Bool) : Nat → List Byte → Option (List SetRec)
  | 0, bs => if bs = [] then some [] else none
  | n + 1, bs =>
    if bs = [] then some []
    else
      let kind := leAt bs 0 1
      let len := leAt bs 2 2
      if bs.length < 4 + len ∨ len % 4 ≠ 0 ∨ kind = 0 ∨ (if inBase then 7 else 4) < kind then none
      else (setRecs inBase n (bs.drop (4 + len))).map (fun rs => (kind, (bs.drop 4).take len) :: rs)

/-- Where mould m of a set lies: offset and length. -/
def mouldAt (bs : List Byte) (m : Nat) : Nat × Nat := (leAt bs (64 + 8 * m) 4, leAt bs (68 + 8 * m) 2)

/-- The moulds of a set, when each present one parses and has a record. -/
def setMoulds (bs : List Byte) : List Nat → Option (SMap (List SetRec))
  | [] => some []
  | m :: ms =>
    let p := mouldAt bs m
    match setMoulds bs ms with
    | none => none
    | some rest =>
      if p.2 = 0 then some rest
      else match setRecs false (p.2 / 4) (bytesAt bs p.1 p.2) with
        | none => none
        | some rs => some ((m, rs) :: rest)

/-- Where a set ends: after its base records and its last mould. -/
def setEnd (bs : List Byte) : Nat :=
  ((List.range 16).map (fun m => if m = 0 ∨ (mouldAt bs m).2 = 0 then 0 else (mouldAt bs m).1 + (mouldAt bs m).2)).foldl max
    (256 + leAt bs 12 4)

/-- The CRC-32C of a set. -/
def setCrc (bs : List Byte) : Nat := crc32c 0 (bs.take 252 ++ (bs.drop 256).take (setEnd bs - 256))

/-- A set, where the bytes of a half hold a valid one (R476). -/
def parseSet (bs : List Byte) : Option SetInfo :=
  let fmt := leAt bs 4 2
  let seq := leAt bs 8 4
  let len := leAt bs 12 4
  if leAt bs 0 4 ≠ 0x454B5950 ∨ fmt = 0 ∨ fmt = 0xFFFF ∨ seq = 0xFFFFFFFF ∨ 4194048 < len ∨ halfSize < setEnd bs
      ∨ (List.range 16).any (fun m => m != 0 && decide (4096 < (mouldAt bs m).2)) ∨ setCrc bs ≠ leAt bs 252 4 then none
  else match setRecs true (len / 4) (bytesAt bs 256 len), setMoulds bs ((List.range 15).map (fun i => i + 1)) with
    | some base, some moulds => some { format := fmt, seq := seq, bootDefault := leAt bs 16 1, base := base, moulds := moulds }
    | _, _ => none

/-- The set of a half. -/
def halfSet (s : State) (half : Nat) : Option SetInfo := parseSet (flashRead s (halfBase half) halfSize)

/-- The half that holds the valid set of a format, the one with the higher set_seq where both do (R476). -/
def halfOfFormat (s : State) (fmt : Nat) : Option (Nat × SetInfo) :=
  let pick := fun (h : Nat) => match halfSet s h with
    | some x => if x.format = fmt then some (h, x) else none
    | none => none
  match pick 0, pick 1 with
  | some a, some b => if a.2.seq < b.2.seq then some b else some a
  | some a, none => some a
  | none, o => o

/-- The set in use. -/
def setInUse (s : State) : Option SetInfo := if s.boot.format = 0 then none else halfSet s s.boot.half

end Sys2Proof.Machine
end

