-- ==== Sys2Proof/Machine/Prog.lean ====
section
/-!
DEFINITION. Krenus-P images: the header (R101), bundles and the fields of an operation (R143, R144), and the
insertion bound of a slot (R151, R297).
-/
namespace Sys2Proof.Machine

/-- The fields of the 64-byte image header (R101), of an image as a little-endian number. -/
structure ImgHeader where
  magic : Nat
  format : Nat
  profile : Nat
  tier : Nat
  abi : Nat
  flags : Nat
  entry : Nat
  textSize : Nat
  dataSize : Nat
  zeroSize : Nat
  version : Nat
  reserved : Nat
  crc : Nat
deriving DecidableEq, Repr

/-- Read a header. -/
def ImgHeader.ofImage (v : Nat) : ImgHeader :=
  { magic := fieldOf v 31 0, format := fieldOf v 47 32, profile := fieldOf v 55 48, tier := fieldOf v 63 56
    abi := fieldOf v 79 64, flags := fieldOf v 95 80, entry := fieldOf v 127 96, textSize := fieldOf v 159 128
    dataSize := fieldOf v 191 160, zeroSize := fieldOf v 223 192, version := fieldOf v 255 224
    reserved := fieldOf v 479 256, crc := fieldOf v 511 480 }

/-- Bundles of a Krenus-P image; 0 for an empty slot. -/
def progBundles (img : Nat) : Nat := fieldOf img 159 128 / 32

/-- Operation j of bundle k (R145). -/
def progOp (img k j : Nat) : Nat :=
  if k < progBundles img then img / 2 ^ (512 + 256 * k + 64 * j) % 2 ^ 64 else 0

/-- The fields of an operation (R143). -/
structure POp where
  opcode : Nat
  pred : Nat
  inv : Bool
  dst : Nat
  srca : Nat
  srcb : Nat
  resv : Nat
  imm : Nat
deriving DecidableEq, Repr

/-- Read an operation. -/
def POp.ofWord (w : Nat) : POp :=
  { opcode := fieldOf w 63 58, pred := fieldOf w 57 55, inv := bitOf w 54, dst := fieldOf w 53 47
    srca := fieldOf w 46 40, srcb := fieldOf w 39 33, resv := fieldOf w 32 32, imm := fieldOf w 31 0 }

/-- The operations of a bundle, slot 0 first. -/
def bundleOps (img k : Nat) : List POp := (List.range 4).map (fun j => POp.ofWord (progOp img k j))

/-- Every operation of a program, in step and slot order. -/
def progOps (img : Nat) : List POp := (List.range (progBundles img)).flatMap (bundleOps img)

/-- EDIT.INS. -/
def opIns : Nat := 0x29

/-- The total width of every EDIT.INS of a program (R151, R297). -/
def insertBound (img : Nat) : Nat :=
  ((progOps img).map (fun o => if o.opcode = opIns then fieldOf o.imm 10 8 + 1 else 0)).foldl (· + ·) 0

/-- The program image of a pipe's slot in a generation: type 0x0B ingress, 0x0C egress. -/
def progImage (s : State) (epoch type pipe slot : Nat) : Nat := tblGet s epoch type pipe slot

end Sys2Proof.Machine
end

