-- ==== Sys2Proof/Machine/Gate.lean ====
section
/-!
DEFINITION. What the head of a queue is tested for: its head length (R297), its gate (R312 to R314) and its age
(R60, R296); queue configuration (R282) and the state of a queue.
-/
namespace Sys2Proof.Machine

/-! ## Queue configuration (R282) -/

/-- A queue configuration image's fields (R282). -/
structure QCfg where
  role : Nat
  position : Nat
  bundle : Nat
  slot : Nat
  pipe : Nat
  quantum : Nat
  pfc : Nat
  gate : Nat
  resetFull : Bool
  threshKib : Nat
  maxKib : Nat
  dp1 : Nat
  dp2 : Nat
  rate : Nat
  burst : Nat
deriving DecidableEq, Repr

/-- The fields of an image (R282). -/
def QCfg.ofImage (v : Nat) : QCfg :=
  { role := fieldOf v 1 0, position := fieldOf v 7 4, bundle := fieldOf v 19 8, slot := fieldOf v 23 20
    pipe := fieldOf v 28 24, quantum := fieldOf v 52 32, pfc := fieldOf v 55 53, gate := fieldOf v 59 56
    resetFull := bitOf v 60, threshKib := fieldOf v 87 64, maxKib := fieldOf v 119 96
    dp1 := fieldOf v 134 128, dp2 := fieldOf v 142 136, rate := fieldOf v 180 160, burst := fieldOf v 214 192 }

/-- A queue's configuration in the generation of an epoch. -/
def qcfgAt (s : State) (epoch q : Nat) : QCfg := QCfg.ofImage (tblGet s epoch 0x0D 0 q)

/-- A queue's configuration in force: the live one, or for an egress queue that of its pipe's generation (R59). -/
def qcfg (s : State) (q : Nat) : QCfg :=
  let c := qcfgAt s s.epoch.live q
  if c.role = 2 then qcfgAt s (pipeEp s c.pipe) q else c

/-- The port an egress queue is tied to (R282). -/
def QCfg.port (c : QCfg) : Nat := 16 * c.pipe + c.slot

/-! ## Queue states -/

/-- Parts of one token of 1/256 byte in which a shaper counts, and of one 2⁻¹⁶ byte in which a port does. -/
def tokenParts : Nat := 1000000

/-- A queue's state. -/
def qst (s : State) (q : Nat) : QSt := mget {} s.qm.states q

/-- The state with a queue's state replaced and marked used. -/
def setQ (q : Nat) (x : QSt) (s : State) : State :=
  { s with qm := { s.qm with states := mset {} s.qm.states q x } }

/-! ## Counted lengths (R297) -/

/-- SCHED_PORT_CFG's overhead, signed (R303). -/
def portOverhead (s : State) (port : Nat) : Int :=
  signed 7 (pipeField s (port / 16) (.sched (port / 16)) (port % 16) 6 0)

/-- A counted length is at least 1 byte (R297). -/
def counted (v : Int) : Nat := if v < 1 then 1 else v.toNat

/-- The head length of a frame of an egress queue (R297). -/
def headLength (s : State) (r : Rind) (port : Nat) : Nat :=
  counted ((r.length : Int) + insertBound (progImage s (readEpoch s r.epoch) 0x0C (port / 16) r.egressSlot)
    + portOverhead s port)

/-! ## Gates (R312 to R315) -/

/-- The pieces of a cycle: from, to (ns) and states; the last entry holds to the cycle's end, and the list is cut
there (R312). -/
def gateSegs (cycle : Nat) : List (Nat × Nat) → Nat → List (Nat × Nat × Nat)
  | [], _ => []
  | [e], t => if t < cycle then [(t, cycle, e.1)] else []
  | e :: es, t =>
    if cycle ≤ t then []
    else
      let u := min cycle (t + e.2)
      if t < u then (t, u, e.1) :: gateSegs cycle es u else gateSegs cycle es u

/-- The pieces of a list's cycle. -/
def GateList.segs (l : GateList) : List (Nat × Nat × Nat) := gateSegs l.cycle l.entries 0

/-- Units of 2⁻¹⁶ ns in a nanosecond. -/
def nsUnits : Nat := 65536

/-- The instant's offset in the cycle, in units. -/
def GateList.offset (l : GateList) (t : Nat) : Nat := (t - l.start) % (l.cycle * nsUnits)

/-- The states in force at an instant. -/
def GateList.statesAt (l : GateList) (t : Nat) : Nat :=
  match l.segs.find? (fun g => decide (l.offset t < g.2.1 * nsUnits)) with
  | some g => g.2.2
  | none => 0xFFFF

/-- The first closing of a gate at or after an instant; none where it is open in every entry (R313). -/
def GateList.nextClose (l : GateList) (g t : Nat) : Option Nat :=
  let off := l.offset t
  let base := t - off
  let two := l.segs ++ l.segs.map (fun p => (p.1 + l.cycle, p.2.1 + l.cycle, p.2.2))
  match two.find? (fun p => decide (off < p.2.1 * nsUnits) && !bitOf p.2.2 g) with
  | some p => some (max t (base + p.1 * nsUnits))
  | none => none

/-- The longest run of open time of a gate in ns, a run across the cycle boundary counting as one; none where the
gate never closes (R314). -/
def GateList.openRun (l : GateList) (g : Nat) : Option Nat :=
  if l.segs.all (fun p => bitOf p.2.2 g) then none
  else
    let two := l.segs ++ l.segs
    some ((two.foldl (fun (a : Nat × Nat) p =>
      if bitOf p.2.2 g then (a.1 + (p.2.1 - p.1), max a.2 (a.1 + (p.2.1 - p.1))) else (0, a.2)) (0, 0)).2)

/-- The gates of a port. -/
def gateRun (s : State) (port : Nat) : GateRun := mget {} s.sched.gates port

/-- The list that will be in operation at an instant; none where the gates are open (R314). -/
def listAt (s : State) (port t : Nat) : Option GateList :=
  let r := gateRun s port
  match r.pending with
  | some l => if l.start ≤ t then (if r.pendingOff then none else some l) else r.running
  | none => r.running

/-- Whether a gate is open at an instant. -/
def gateOpenAt (s : State) (port g t : Nat) : Bool :=
  match listAt s port t with
  | some l => bitOf (l.statesAt t) g
  | none => true

/-- The next closing of a gate, across a pending switch (R313). -/
def gateCloses (s : State) (port g t : Nat) : Option Nat :=
  let r := gateRun s port
  let cur := match listAt s port t with
    | some l => l.nextClose g t
    | none => none
  match r.pending with
  | none => cur
  | some l =>
    if l.start ≤ t then cur
    else match cur with
      | some c => if c < l.start then some c else if r.pendingOff then none else l.nextClose g l.start
      | none => if r.pendingOff then none else l.nextClose g l.start

/-- ps of a counted length at a port's payload rate. -/
def wirePs (s : State) (port len : Nat) : Nat := len * 8 * 1000000 / (modeMbps (laneMode s port) + b2n (laneMode s port = 0))

/-- When a frame selected now would send its first byte, in ps: tx_lead_ns later or when the previous frame ends
(R301). -/
def firstByteAt (s : State) (port : Nat) : Nat :=
  max (s.now + 220000) (mget {} s.sched.ports port).wireEnd

/-- A ps instant as the time of day at a port's lanes, in units (R313, R407). -/
def todAt (s : State) (port ps : Nat) : Nat := tileTime s port + (ps - s.now) * nsUnits / 1000

/-- Whether a gate lets a head of this length be selected now (R313). -/
def gateAllows (s : State) (port g len : Nat) : Bool :=
  let f := todAt s port (firstByteAt s port)
  gateOpenAt s port g f &&
    match gateCloses s port g f with
    | none => true
    | some c => decide (f + wirePs s port len * nsUnits / 1000 ≤ c)

/-- Whether a head can never fit its gate: its time exceeds the gate's open duration, and the gate is not shut
(R314). -/
def gateOversize (s : State) (port g len : Nat) : Bool :=
  match listAt s port (todAt s port (firstByteAt s port)) with
  | none => false
  | some l => match l.openRun g with
    | none => false
    | some 0 => false
    | some d => decide (d * 1000 < wirePs s port len)

/-! ## The age of a head (R60, R296) -/

/-- Whether a frame has waited past epoch_drain_limit stamped with an epoch older than the live one. -/
def headStale (s : State) (d : Desc) : Bool :=
  epochOlder d.rind.epoch s.epoch.live
    && decide (d.enqueuedAt + rwField s .epoch 1 9 0 * psMs < s.now)

end Sys2Proof.Machine
end

