-- ==== Sys2Proof/Machine/Queue.lean ====
section
/-!
DEFINITION. The queue manager, the queue cache and the pager (R280 to R295): the enqueue decision, the journal,
queue states and their copies, pages out and in, flushes.
-/
namespace Sys2Proof.Machine

/-! ## Queue states -/

/-- 64-byte units of a frame of L bytes (R285). -/
def depthUnits (len : Nat) : Nat := (len + 63) / 64

/-- The last of a list of indexes, or the mark of none. -/
def lastOr (d : Nat) (l : List Nat) : Nat := l.getLast?.getD d

/-- The 32-byte record of a queue state (R285). -/
def QSt.bytes (x : QSt) : List Byte :=
  leBytes 32 (x.head.headD noLink + lastOr noLink x.head * 2 ^ 21 + x.tail.headD noLink * 2 ^ 42
    + lastOr noLink x.tail * 2 ^ 63 + x.pages.headD 0x3FFFFFF * 2 ^ 84 + lastOr 0x3FFFFFF x.pages * 2 ^ 110
    + x.depth % 2 ^ 32 * 2 ^ 136 + x.deficit % 2 ^ 22 * 2 ^ 168 + twos 32 (x.tokens / 1000000) * 2 ^ 190
    + b2n x.resident * 2 ^ 222 + b2n x.pinned * 2 ^ 223 + b2n x.locked * 2 ^ 224 + b2n x.paged * 2 ^ 225
    + b2n x.flushing * 2 ^ 226 + b2n x.miss * 2 ^ 227)

/-- Whether any Cave channel is ready (R277). -/
def anyChanReady (s : State) : Bool := (List.range 8).any (fun c => (chan s c).ready)

/-! ## The enqueue decision (R284) -/

/-- Whether VOQs toward a unit drop: the fabric is not enabled, or the unit is lost (R320, R353). -/
def destLost (s : State) (unit : Nat) : Bool :=
  rwlField s .fabric 0 0 0 = 0 || (mget {} s.roll.peers unit).lost

/-- Whether a frame would take the depth past its precedence's limit (R284). -/
def pastLimit (s : State) (c : QCfg) (q dp len : Nat) : Bool :=
  let journaled := ((s.qm.journal.filter (fun j => j.1 == q)).map
    (fun j => depthUnits (desc s j.2).rind.length)).foldl (· + ·) 0
  let pct := if dp = 0 then 100 else if dp = 1 then c.dp1 else c.dp2
  decide (c.maxKib ≠ 0) &&
    decide (c.maxKib * 1024 * pct < ((qst s q).depth + journaled + depthUnits len) * 64 * 100)

/-- The Whey reason under which an enqueue is dropped; none where the frame is appended (R284). -/
def enqueueDecision (s : State) (q epoch dp len : Nat) : Option Nat :=
  let c := qcfgAt s (readEpoch s epoch) q
  if c.role = 0 then some Wh.queueInvalid
  else if c.role = 2 ∧ ¬ portExists s c.port then some Wh.queueInvalid
  else if c.role = 1 ∧ destLost s (q / 1024) then some Wh.destLost
  else if pastLimit s c q dp len then some Wh.queueFull
  else if 65536 ≤ s.qm.journal.length then some Wh.enqJournalFull
  else none

/-! ## The head of a queue (R291, R293, R296, R355) -/

/-- Link the descriptors of a list to one another (R268). -/
def linkList : List Nat → State → State
  | i :: j :: l, s => linkList (j :: l) (setDesc i { desc s i with next := j } s)
  | _, s => s

/-- Link a descriptor behind the last of a list (R268). -/
def linkAfter (l : List Nat) (i : Nat) (s : State) : State :=
  match l.getLast? with
  | none => s
  | some j => setDesc j { desc s j with next := i } s

/-- Bytes of the frames of a list. -/
def listBytes (s : State) (l : List Nat) : Nat := (l.map (fun i => (desc s i).rind.length)).foldl (· + ·) 0

/-- Whether the head list holds less than page_in_mark (R291). -/
def headLow (s : State) (x : QSt) : Bool := decide (listBytes s x.head < rwField s .pager 0 12 8 * 4096)

/-- With no page left, the staging list joins behind the head list and paged clears (R291). -/
def closePages (q : Nat) (s : State) : State :=
  let x := qst s q
  if x.pages = [] then
    setQ q { x with head := x.head ++ x.tail, tail := [], partOut := 0, partIn := [], partBad := 0, since := [],
                    paged := false }
      (match x.tail with
        | [] => s
        | i :: _ => linkAfter x.head i s)
  else s

/-- A head list has changed: while it is low and no page is left, the staging list joins it; while it is empty and
a page is not yet read, miss is set (R291, R293). -/
def settleHead (q : Nat) (s : State) : State :=
  let s1 := if (qst s q).paged ∧ headLow s (qst s q) then closePages q s else s
  let x := qst s1 q
  setQ q { x with miss := decide (x.head = []) && decide (x.pages ≠ []) } s1

/-- The head frame leaves its queue's list; what becomes of its descriptor is its taker's. -/
def dropHead (q : Nat) (s : State) : State :=
  let x := qst s q
  match x.head with
  | [] => s
  | i :: is =>
    settleHead q (setQ q { x with
      head := is
      depth := x.depth - depthUnits (desc s i).rind.length
      dirty := true
      lastUsed := s.now } s)

/-- A frame's epoch less the live one, modulo 2¹⁶ (R355). -/
def epochDiff (s : State) (d : Desc) : Nat := (d.rind.epoch + (65536 - s.epoch.live % 65536)) % 65536

/-- Whether a frame has waited longer than epoch_drain_limit since its enqueue here (R60). -/
def waitedOut (s : State) (d : Desc) : Bool := decide (d.enqueuedAt + rwField s .epoch 1 9 0 * psMs < s.now)

/-- The drop by epoch of a frame in its egress unit (R355); a VOQ's frames have not reached theirs. -/
def epochDrop (s : State) (role : Nat) (d : Desc) : Option Nat :=
  if role = 1 ∨ epochDiff s d = 0 then none
  else if epochDiff s d = 65535 then
    if epochReadable s (d.rind.epoch % 65536) then none else some Wh.epochStale
  else if epochDiff s d = 1 then (if waitedOut s d then some Wh.epochAhead else none)
  else some Wh.epochAhead

/-- SYSTEM_EPOCH_SKEW, at most once per ms, at a frame whose epoch is neither of the two nor the next (R355). -/
def noteSkew (d : Desc) (s : State) : State :=
  if epochDiff s d = 0 ∨ epochDiff s d = 1 ∨ epochDiff s d = 65535 ∨ (s.fabric.skewAt ≠ 0 ∧ s.now < s.fabric.skewAt - 1 + psMs)
  then s
  else raise .fabric Ev.systemEpochSkew (d.rind.epoch % 2 ^ 16 + s.epoch.live % 2 ^ 16 * 2 ^ 16 + d.rind.sourceUnit * 2 ^ 32)
    { s with fabric := { s.fabric with skewAt := s.now + 1 } }

/-- The Whey reason under which a head is dropped by the tests of R296, if any. -/
def headDrop (s : State) (q : Nat) (d : Desc) : Option Nat :=
  let c := qcfg s q
  if headStale s d then some Wh.epochStale
  else if (epochDrop s c.role d).isSome then epochDrop s c.role d
  else if c.role = 2 ∧ gateOversize s c.port c.gate (headLength s d.rind c.port) then some Wh.gateOversize
  else none

/-- Frames that the head tests may meet one after another: the head list, and the staging list that may join it. -/
def headFuel (x : QSt) : Nat := x.head.length + x.tail.length

/-- Test at most `fuel` heads of a queue, one after another. -/
def testHeadLoop (q : Nat) : Nat → State → State
  | 0, s => s
  | fuel + 1, s =>
    match (qst s q).head with
    | [] => s
    | i :: _ =>
      match headDrop s q (desc s i) with
      | none => s
      | some r =>
        let s1 := if r = Wh.epochAhead then noteSkew (desc s i) s else s
        testHeadLoop q fuel (dropDesc i r (qcfg s q).port (dropHead q s1))

/-- The drop tests of R296 on a resident queue. -/
def testHeads (q : Nat) (s : State) : State :=
  if (qst s q).resident then testHeadLoop q (headFuel (qst s q)) s else s

/-- The head frame is taken and the next head is tested (R296). -/
def popHead (q : Nat) (s : State) : State := testHeads q (dropHead q s)

/-! ## Joining a queue -/

/-- An arrival joins the staging list or the head list; a staging list with no page ahead of it joins a low head list
(R290, R291). -/
def joinQueue (q i : Nat) (s : State) : State :=
  let x := qst s q
  let c := qcfg s q
  let units := depthUnits (desc s i).rind.length
  let past := decide (c.threshKib ≠ 0) && decide (c.threshKib * 1024 < (x.depth + units) * 64)
  if (x.paged || past) && (x.paged || anyChanReady s) then
    let s1 := settleHead q (setQ q { x with tail := x.tail ++ [i], paged := true, depth := x.depth + units,
                                            dirty := true, lastUsed := s.now } (linkAfter x.tail i s))
    if x.head = [] then testHeads q s1 else s1
  else
    let s1 := setQ q { x with head := x.head ++ [i], depth := x.depth + units, dirty := true,
                              lastUsed := s.now } (linkAfter x.head i s)
    if x.head = [] then testHeads q s1 else s1

/-- Apply a list of journal entries in order. -/
def applyEntries : List (Nat × Nat) → State → State
  | [], s => s
  | j :: js, s => applyEntries js (joinQueue j.1 j.2 s)

/-- Apply a queue's journal entries, in journal order (R287). -/
def applyJournal (q : Nat) (s : State) : State :=
  let mine := s.qm.journal.filter (fun j => j.1 == q)
  applyEntries mine { s with qm := { s.qm with journal := s.qm.journal.filter (fun j => j.1 != q) } }

/-- Post a descriptor to the journal; a resident queue takes it at once (R287). -/
def postEnqueue (q i : Nat) (s : State) : State :=
  let s1 := { s with qm := { s.qm with journal := s.qm.journal ++ [(q, i)] } }
  if (qst s q).resident then applyJournal q s1 else s1

/-- Stamp a stream's next sequence number on a frame that enters a VOQ (R50). -/
def stampSequence (q : Nat) (r : Rind) (s : State) : Rind × State :=
  if (qcfgAt s (readEpoch s r.epoch) q).role = 1 then
    let n := mget 0 s.roll.nextSeq q
    ({ r with sequence := n },
     { s with roll := { s.roll with nextSeq := mset 0 s.roll.nextSeq q ((n + 1) % 2 ^ 32) } })
  else (r, s)

/-! ## The queue cache (R286 to R288) -/

/-- The pool 6 buffer that holds copy 0 or 1 of a block of 65,536 queue states: the place of R286, or where a rebuild
put it (R277). -/
def copyBuffer (s : State) (b copy : Nat) : Nat :=
  match mget 0 s.qm.copyPlace (2 * b + copy) with
  | 0 => 768 * (b / 4 + 4 * copy) + b % 4
  | n + 1 => n

/-- The Cave window offset of copy 0 or 1 of a queue's state: buffer k of channel c ends 128 MiB and k buffers below the
channel's end (R255, R286). -/
def copyOffset (s : State) (q copy : Nat) : Nat :=
  let i := copyBuffer s (q / 65536) copy
  (i / 768 + 1) * 0x600000000 - 0x8000000 - (i % 768 + 1) * 0x200000 + q % 65536 * 32

/-- Whether a copy of a queue's state can be read or written (R277). -/
def copyGood (s : State) (q copy : Nat) : Bool :=
  !s.qm.copyLost.contains (q / 65536, copy)

/-- Write both copies of a queue's state (R288). -/
def writeCopies (q : Nat) (s : State) : State :=
  let bs := (qst s q).bytes
  let put := fun (copy : Nat) (m : Memory) => if copyGood s q copy then memWrite m (copyOffset s q copy) bs else m
  setQ q { qst s q with dirty := false } { s with cave := { s.cave with mem := put 1 (put 0 s.cave.mem) } }

/-- Resident states. -/
def residentCount (s : State) : Nat := (s.qm.states.filter (fun p => p.2.resident)).length

/-- Whether a resident state may be evicted (R288). -/
def evictable (x : QSt) : Bool := x.resident && !x.pinned && !x.locked && !x.reading

/-- The evictable state used longest ago. -/
def oldestState (s : State) : Option Nat :=
  (s.qm.states.filter (fun p => evictable p.2)).foldl
    (fun best p => match best with
      | none => some p.1
      | some q => if p.2.lastUsed < (qst s q).lastUsed then some p.1 else some q) none

/-- Evict a state: both copies are written (R288). -/
def evict (q : Nat) (s : State) : State :=
  let s1 := writeCopies q (setQ q { qst s q with resident := false } s)
  { s1 with qm := { s1.qm with evictions := (s1.qm.evictions + 1) % 2 ^ 32 } }

/-! ## Dropping a queue's frames (R289, R435) -/

/-- Drop descriptors under a Whey reason. -/
def dropAll (reason port : Nat) : List Nat → State → State
  | [], s => s
  | i :: is, s => dropAll reason port is (dropDesc i reason port s)

/-- The header of a page: entries and continued (R273). -/
def pageHeader (s : State) (p : Nat) : Nat × Bool :=
  let off := p / 6291456 * 0x600000000 + p % 6291456 * 4096
  let w := leNat (memRead s.cave.mem (off + 12) 4)
  (w % 64, bitOf w 6)

/-- Free a page and both copies of its link table entry. -/
def freePage (p : Nat) (s : State) : State :=
  freeBuffer (handle 5 p) { s with cave := { s.cave with
    pageLinkA := mdel s.cave.pageLinkA p
    pageLinkB := mdel s.cave.pageLinkB p } }

/-- Free pages. -/
def freePages : List Nat → State → State
  | [], s => s
  | p :: ps, s => freePages ps (freePage p s)

/-- Frames that begin in pages. -/
def pagedFrames (s : State) (x : QSt) : Nat :=
  (x.pages.map (fun p => (pageHeader s p).1)).foldl (· + ·) 0 + (if x.partIn = [] then 0 else 1)
    - (if x.partOut = 0 then 0 else 1)

/-- Drop every frame a queue holds: the count dropped and the state with the queue empty. -/
def emptyQueue (q reason : Nat) (s : State) : Nat × State :=
  let s0 := applyJournal q s
  let x := qst s0 q
  let n := x.head.length + x.tail.length + pagedFrames s0 x
  let port := (qcfg s0 q).port
  let s1 := dropAll reason port (x.head ++ x.tail) s0
  let s2 := wheyN reason (pagedFrames s0 x) port (freePages x.pages s1)
  (n, setQ q { x with head := [], tail := [], pages := [], since := [], partOut := 0, partIn := [], partBad := 0,
                      depth := 0, paged := false, miss := false, reading := false, prefetching := false,
                      dirty := true } s2)

/-! ## Bringing a state in (R277, R287, R307) -/

/-- Both copies of a queue's state are lost: the queue is flushed (R277). -/
def loseState (q : Nat) (s : State) : State :=
  raise .qmgr Ev.queueStateLost (q + 2 ^ 20) (emptyQueue q Wh.cavePageLost s).2

/-- Bring a queue's state into the cache: evict when it is full, flush it when both copies are lost, then apply
its journal entries. -/
def fetchState (q : Nat) (s : State) : State :=
  if (qst s q).resident then s
  else
    let s1 := if residentCount s < 32768 then s else
      match oldestState s with
      | some v => evict v s
      | none => s
    if 32768 ≤ residentCount s1 then s
    else
      let s2 := if copyGood s1 q 0 ∨ copyGood s1 q 1 then s1 else loseState q s1
      let s3 := perfEvent { code := 0x033, master := 0x35 } s2
      testHeads q (applyJournal q (setQ q { qst s3 q with resident := true, lastUsed := s3.now } s3))

/-! ## Pages out (R273, R290) -/

/-- A frame's record in a page: its descriptor image and its bytes padded to a multiple of 64 (R273). -/
def pageRecord (s : State) (i : Nat) : List Byte :=
  let d := desc s i
  let bs := frameBytes s d
  descImage s d ++ bs ++ List.replicate (depthUnits d.rind.length * 64 - bs.length) 0

/-- What a page takes from the front of a staging list: body bytes, frames that begin in it, frames wholly
written, and the bytes of the next frame's record already written. -/
def fillPage (s : State) : List Nat → Nat → Nat → List Byte × Nat × List Nat × Nat
  | [], _, _ => ([], 0, [], 0)
  | i :: is, skip, room =>
    if skip = 0 ∧ room < 128 then ([], 0, [], 0)
    else
      let rec_ := (pageRecord s i).drop skip
      let begins := if skip = 0 then 1 else 0
      if rec_.length ≤ room then
        let r := fillPage s is 0 (room - rec_.length)
        (rec_ ++ r.1, begins + r.2.1, i :: r.2.2.1, r.2.2.2)
      else (rec_.take room, begins, [], skip + room)

/-- Body bytes of a page. -/
def pageBody : Nat := 4032

/-- Whether a staging list holds enough to fill a page. -/
def pageFull (s : State) (x : QSt) : Bool :=
  let r := fillPage s x.tail x.partOut pageBody
  decide (r.2.2.2 ≠ 0) || decide (pageBody < r.1.length + 128)

/-- The frames whose records begin in the next page of a queue. -/
def begun (s : State) (x : QSt) : List Nat :=
  (x.tail.drop (if x.partOut = 0 then 0 else 1)).take (fillPage s x.tail x.partOut pageBody).2.1

/-- The pager reads a wrong descriptor or a byte that fails parity in a staging list: the frame is dropped (R269). -/
def dropStaged (q i : Nat) (s : State) : State :=
  let x := qst s q
  let port := (qcfg s q).port
  let s1 := if descOk s (desc s i) then endDesc i (whey Wh.parity port s) else dropWrongDesc i port s
  let tail := x.tail.filter (fun j => j != i)
  linkList tail (setQ q { x with tail := tail, depth := x.depth - depthUnits (desc s i).rind.length, dirty := true } s1)

/-- Drop the frames that the next page cannot take (R269), at most `fuel` of them. -/
def cleanStaging (q : Nat) : Nat → State → State
  | 0, s => s
  | fuel + 1, s =>
    match (begun s (qst s q)).find? (fun i => !descOk s (desc s i) || frameBad s (desc s i)) with
    | none => s
    | some i => cleanStaging q fuel (dropStaged q i s)

/-- A page's 4,096 bytes (R273). -/
def pageBytes (q seq next entries : Nat) (continued : Bool) (body : List Byte) : List Byte :=
  let h := leBytes 4 q ++ leBytes 4 seq ++ leBytes 4 next ++ leBytes 4 (entries + b2n continued * 64)
    ++ List.replicate 44 0
  h ++ leBytes 4 (crc32c 0 h) ++ body ++ List.replicate (pageBody - body.length) 0

/-- The window offset of a pool 5 page. -/
def pageOffset (p : Nat) : Nat := p / 6291456 * 0x600000000 + p % 6291456 * 4096

/-- Name the page that follows a page, in its header and in both copies of the page link table (R256, R273). -/
def linkPage (p next : Nat) (s : State) : State :=
  let h := overlay (memRead s.cave.mem (pageOffset p) 60) 8 (leBytes 4 next)
  { s with cave := { s.cave with
      mem := memWrite s.cave.mem (pageOffset p) (h ++ leBytes 4 (crc32c 0 h))
      pageLinkA := mset 0x3FFFFFF s.cave.pageLinkA p next
      pageLinkB := mset 0x3FFFFFF s.cave.pageLinkB p next } }

/-- End the holds of frames whose records a page write completed (R260). -/
def endDescs : List Nat → State → State
  | [], s => s
  | i :: is, s => endDescs is (endDesc i s)

/-- A Cave channel fails in service: no more claims from it, and the queue-state copies on it are lost (R277, R286). -/
def caveFail (c cause : Nat) (s : State) : State :=
  let x := chan s c
  if ¬ x.ready then s
  else
    let lost := ((List.range 32).map (fun k => (k / 2, k % 2))).filter (fun p => copyBuffer s p.1 p.2 / 768 == c)
    let s1 := setChan c { x with ready := false, failed := true } s
    raise (.cave c) Ev.caveChannelDown (c + cause * 8)
      { s1 with qm := { s1.qm with copyLost := s1.qm.copyLost.filter (fun p => !lost.contains p) ++ lost } }

/-- A page is written to or read from a channel (R275). -/
def notePage (c : Nat) (s : State) : State :=
  setChan c { chan s c with moves := s.now :: (chan s c).moves.filter (fun t => decide (s.now < t + psMs)) } s

/-- Write one page from the front of a queue's staging list, when a page can be claimed (R266, R290). -/
def writePage (q : Nat) (s : State) : State :=
  let x := qst s q
  let r := fillPage s x.tail x.partOut pageBody
  match claim 5 (ownerName 5 0) 1 s with
  | (some (p :: _), s1) =>
    let s2 := setRecord (handle 5 p) (queueOwner q) 1 s1
    let img := pageBytes q x.pageSeq 0x3FFFFFF r.2.1 (decide (x.partOut ≠ 0)) r.1
    let s3 := notePage (p / 6291456) { s2 with cave := { s2.cave with mem := memWrite s2.cave.mem (pageOffset p) img } }
    let s4 := match x.pages.getLast? with
      | some l => linkPage l p s3
      | none => s3
    let s5 := perfEvent { code := 0x030, master := 0x35 } (endDescs r.2.2.1 s4)
    setQ q { x with pages := x.pages ++ [p], tail := x.tail.drop r.2.2.1.length, partOut := r.2.2.2,
                    since := x.since ++ (begun s x).map (fun i => (desc s i).enqueuedAt)
                    pageSeq := (x.pageSeq + 1) % 2 ^ 32, dirty := true, lastUsed := s.now } s5
  | (_, s1) => s1

/-! ## Pages in (R276, R277, R291) -/

/-- One frame record read from pages: its descriptor and its bytes. -/
abbrev PageFrame := Desc × List Byte

/-- The length of the record whose first bytes these are. -/
def recordLen (bs : List Byte) : Nat := 64 + depthUnits (Desc.parse bs).rind.length * 64

/-- A record's frame. -/
def recordFrame (bs : List Byte) : PageFrame :=
  let d := Desc.parse bs
  (d, (bs.drop 64).take d.rind.length)

/-- The frames of a body, with what a frame that continues in the next page has given so far. -/
def parseBody : Nat → Nat → List Byte → List PageFrame × List Byte
  | 0, _, _ => ([], [])
  | _, 0, _ => ([], [])
  | fuel + 1, n + 1, bs =>
    if bs.length < 128 then ([], [])
    else
      let len := recordLen bs
      if len ≤ bs.length then
        let r := parseBody fuel n (bs.drop len)
        (recordFrame bs :: r.1, r.2)
      else ([], bs)

/-- The frames a page completes and what it leaves begun, given what the page before left begun and the bytes of
a dropped frame to skip: frames, left begun, bytes still to skip. -/
def parsePage (entries : Nat) (body partIn : List Byte) (skip : Nat) : List PageFrame × List Byte × Nat :=
  if skip ≠ 0 then
    if body.length ≤ skip then ([], [], skip - body.length)
    else let r := parseBody 64 entries (body.drop skip); (r.1, r.2, 0)
  else if partIn = [] then let r := parseBody 64 entries body; (r.1, r.2, 0)
  else
    let need := recordLen partIn - partIn.length
    if body.length < need then ([], partIn ++ body, 0)
    else
      let r := parseBody 64 entries (body.drop need)
      (recordFrame (partIn ++ body.take need) :: r.1, r.2, 0)

/-- Whether a descriptor image read from a page can stand: its cell_count is the frame's (R108, R269). -/
def pageImageOk (d : Desc) : Bool := 1 ≤ d.cellCount && d.cellCount ≤ 64 && d.cellCount = cellsFor d.rind.length

/-- The frames a page completes, with the instants at which they were enqueued in this unit (R60). -/
def withSince : List Nat → List PageFrame → List PageFrame
  | t :: ts, f :: fs => ({ f.1 with enqueuedAt := t }, f.2) :: withSince ts fs
  | _, fs => fs

/-- A frame of a page that is not delivered leaves its queue's depth, counted under a Whey reason. -/
def dropPaged (q reason : Nat) (f : PageFrame) (s : State) : State :=
  let x := qst s q
  whey reason (qcfg s q).port
    (setQ q { x with depth := x.depth - depthUnits f.1.rind.length, dirty := true } s)

/-- A page holds a wrong descriptor image: its frame is dropped (R108, R269). -/
def dropWrongImage (q : Nat) (f : PageFrame) (s : State) : State :=
  raiseAt (blockPlace .vat) Ev.descInvalid
    (satField 0 21 noLink + satField 21 7 f.1.cellCount + satField 28 20 q) f.1.rind.length
    (dropPaged q Wh.descriptorInvalid f s)

/-- Put read frames back into the Press for a queue, each with the time it was enqueued; a wrong image is dropped. None
where a claim fails and the page-in waits (R266). -/
def restoreFrames (q side : Nat) : List PageFrame → State → Option (List Nat) × State
  | [], s => (some [], s)
  | f :: fs, s =>
    if ¬ pageImageOk f.1 then restoreFrames q side fs (dropWrongImage q f s)
    else match claimFrame (ownerName 5 side) f.2.length 1 s with
      | (some (cells, i :: _), s1) =>
        let s2 := storeFrame cells f.2 (queueOwner q) s1
        let s3 := setRecord (handle 7 i) (queueOwner q) 1 (setDesc i
          { f.1 with firstCell := cells.headD noLink, cellCount := cells.length, next := noLink, holderQueue := q } s2)
        match restoreFrames q side fs s3 with
        | (some is, s4) => (some (i :: is), s4)
        | (none, s4) => (none, s4)
      | (_, s1) => (none, s1)

/-- The end of a page read: the wait of the head ends when it has a frame, counted in PAGER_PREFETCHES when a prefetch
asked for the page, else in PAGER_MISSES when the head had waited (R293 to R295). -/
def clearMiss (q : Nat) (s : State) : State :=
  let x := qst s q
  let m := s.qm
  let waits := decide (x.head = []) && decide (x.pages ≠ [])
  let s1 :=
    if x.prefetching ∧ x.head ≠ [] then { s with qm := { m with prefetches := (m.prefetches + 1) % 2 ^ 32 } }
    else if x.miss ∧ ¬ waits then
      perfEvent { code := 0x032, master := 0x35 } { s with qm := { m with misses := (m.misses + 1) % 2 ^ 32 } }
    else s
  testHeads q (setQ q { qst s1 q with reading := false, prefetching := false, miss := waits } s1)

/-- A page could not be read: the frames that begin in it and the frame that continues into it are lost. A page that
ECC cannot correct, or whose header fails, is retired; a channel that has retired 4,096 fails (R276, R277). -/
def losePage (q p : Nat) (retire ecc : Bool) (s : State) : State :=
  let x := qst s q
  let h := pageHeader s p
  let body := memRead s.cave.mem (pageOffset p + 64) pageBody
  let r := parsePage h.1 body x.partIn x.partBad
  let lost := h.1 + (if x.partIn = [] then 0 else 1)
  let skip := if r.2.1 = [] then r.2.2 else recordLen r.2.1 - r.2.1.length
  let c := p / 6291456
  let s1 := wheyN Wh.cavePageLost lost (qcfg s q).port (freePage p s)
  let units := ((r.1.map (fun f => depthUnits f.1.rind.length)).foldl (· + ·) 0)
    + (if r.2.1 = [] then 0 else depthUnits (Desc.parse r.2.1).rind.length)
  let s2 := setQ q { qst s1 q with pages := x.pages.drop 1, partIn := [], partBad := skip,
                                   since := x.since.drop lost, depth := x.depth - units, dirty := true } s1
  let k := chan s2 c
  let k1 := if ecc then { k with uncorrected := (k.uncorrected + 1) % 2 ^ 32 } else k
  if ¬ retire then s2
  else if 4096 ≤ k.retired.length then caveFail c 1 (setChan c k1 s2)
  else raise (.cave c) Ev.cavePageRetired (satField 0 26 p + satField 26 13 (k.retired.length + 1))
    (setChan c { k1 with retired := k.retired ++ [p % 6291456] } s2)

/-- The frame of a page that fails parity is dropped; the others remain (R276). -/
def dropBadFrame (q : Nat) (read : PageRead) (fs : List PageFrame) (s : State) : List PageFrame × State :=
  match read with
  | .badFrame k =>
    match fs[k]? with
    | some f => (fs.eraseIdx k, dropPaged q Wh.parity f s)
    | none => (fs, s)
  | _ => (fs, s)

/-- What a failed claim leaves of a page-in: its counts; the page waits and is tried again (R266). -/
def keepCounts (s t : State) : State :=
  { s with
    perf := t.perf
    vat := { s.vat with
      empties := t.vat.empties
      declaredDrops := t.vat.declaredDrops } }

/-- A page has been read: its frames join the head list, or, unreadable, are lost (R276, R277, R291). -/
def pageInFinish (q : Nat) (read : PageRead) (s : State) : State :=
  let x := qst s q
  match x.pages with
  | [] => clearMiss q s
  | p :: ps =>
    let c := p / 6291456
    let bytes := memRead s.cave.mem (pageOffset p) 64
    let crcOk := leAt bytes 60 4 = crc32c 0 (bytes.take 60)
    if ¬ (chan s c).ready then clearMiss q (closePages q (losePage q p false false s))
    else if read = .uncorrectable ∨ ¬ crcOk then
      clearMiss q (closePages q (losePage q p true (decide (read = .uncorrectable)) (notePage c s)))
    else
      let r := parsePage (pageHeader s p).1 (memRead s.cave.mem (pageOffset p + 64) pageBody) x.partIn x.partBad
      let kept := dropBadFrame q read (withSince x.since r.1) s
      match restoreFrames q (c / 4) kept.1 kept.2 with
      | (none, s1) => keepCounts s s1
      | (some is, s1) =>
        let k := chan s1 c
        let s2 := freePage p (notePage c
          (if read = .corrected then setChan c { k with corrected := (k.corrected + 1) % 2 ^ 32 } s1 else s1))
        let x2 := qst s2 q
        let x3 := { x2 with
          pages := ps
          head := x2.head ++ is
          since := x2.since.drop r.1.length
          partIn := r.2.1
          partBad := r.2.2
          dirty := true
          lastUsed := s.now }
        clearMiss q (closePages q (setQ q x3 (linkList (x2.head.getLast?.toList ++ is) s2)))

/-- Page reads in flight (R294, R295). -/
def readsOpen (s : State) : Nat := (s.qm.states.filter (fun p => p.2.reading)).length

/-- Begin to read the next page of a queue, asked for by a prefetch or not, with at most 1,024 in flight (R291, R294);
with no page left the staging list joins a low head list. -/
def beginPageIn (prefetch : Bool) (q : Nat) (s : State) : State :=
  let x := qst s q
  if ¬ x.resident ∨ x.reading ∨ ¬ headLow s x then s
  else if x.pages = [] then settleHead q s
  else if 1024 ≤ readsOpen s then s
  else perfEvent { code := 0x031, master := 0x35 }
    (setQ q { x with reading := true, prefetching := prefetch, miss := decide (x.head = []) } s)

end Sys2Proof.Machine
end

