-- ==== Sys2Proof/Machine/QueueCmd.lean ====
section
/-!
DEFINITION. The Q group (R132).
-/
namespace Sys2Proof.Machine

/-! ## The Q group -/

/-- Whether every cell of a chain is held by an owner, and the chain is whole (R270). -/
def chainHeld (s : State) (o : Nat) (cells : List Nat) (n : Nat) : Bool :=
  cells.length = n && cells.all (fun c => c < 1507328 && holdsBuffer s o (handle 0 c))

/-- The holds of a chain pass from an owner to a queue: a sharer hold when it has one, else the last owner's; the
first cell's record becomes the chain's (R259, R270). -/
def passChain (o q : Nat) (cells : List Nat) (s : State) : State :=
  match cells with
  | [] => s
  | c :: _ =>
    let g := govern s (handle 0 c)
    let r := mget {} s.vat.held g
    let sharer := s.vat.holdTable.any (fun e => e.1 == g && e.2.1 == o && decide (0 < e.2.2))
    let r1 := if sharer then r else { r with owner := queueOwner q }
    let table := if sharer then holdTableTake g o 1 s.vat.holdTable else s.vat.holdTable
    let s1 := { s with vat := { s.vat with holdTable := table } }
    let s2 := if r.chain = 0 ∧ g = handle 0 c then makeChain cells r1.owner s1 else s1
    { s2 with vat := { s2.vat with held := mput s2.vat.held g { r1 with chain := 0 } } }

/-- Q.ENQ's effect after its descriptor is read and its slot claimed (R132, R270, R284). -/
def qEnqWith (o q i : Nat) (d : Desc) (s : State) : DevOut :=
  let cells := chainCells s d.cellCount d.firstCell
  if ¬ chainHeld s o cells d.cellCount then .done (result rNotHeld 0) (freeDescSlot i s)
  else match enqueueDecision s q d.rind.epoch d.rind.dropPrec d.rind.length with
    | some r => .done (result rRefused r) (freeDescSlot i s)
    | none =>
      let st := stampSequence q d.rind (passChain o q cells s)
      let d1 := { d with rind := st.1, next := noLink, holderQueue := q, enqueuedAt := s.now }
      .done (result rOk 0) (postEnqueue q i (perfEvent { code := 0x011, master := 0x20, cls := some (q % 8) }
        (setRecord (handle 7 i) (queueOwner q) 1 (setDesc i d1 st.2))))

/-- Q.ENQ kd, ka, kb (R108, R132, R270). -/
def execQEnq (e : EngineId) (kd ka kb : KReg) (s : State) : Host.Outcome State Fault Refusal :=
  .next (runDev e .q (encDev 0x27 0 kd ka kb 0) kd (fun s =>
    let q := (kget s e ka).toNat
    let a := (kget s e kb).toNat
    if 1048576 ≤ q then .done (result rRange 0) s
    else match spanFault s e .read a 64 with
      | some f => .trap f.1 f.2
      | none =>
        let d := Desc.parse (loadBytes s e a 64)
        if d.cellCount = 0 ∨ 64 < d.cellCount then .trap causeDesc a
        else match claimAs 4 7 (ownerOf s e) 1 s with
          | (some (i :: _), s1) => qEnqWith (ownerOf s e) q i d s1
          | (_, s1) => .done (result rFull 0) s1) s)

/-- Q.READ kd, ka, kb: the 32-byte state to memory, brought in if it is not resident (R132, R285). -/
def execQRead (e : EngineId) (kd ka kb : KReg) (s : State) : Host.Outcome State Fault Refusal :=
  .next (runDev e .q (encDev 0x27 1 kd ka kb 0) kd (fun s =>
    let q := (kget s e ka).toNat
    let a := (kget s e kb).toNat
    if 1048576 ≤ q then .done (result rRange 0) s
    else match spanFault s e .write a 32 with
      | some f => .trap f.1 f.2
      | none =>
        let s1 := fetchState q s
        .done (result rOk 0) (storeBytes e a (qst s1 q).bytes s1)) s)

/-- Q.FLUSH's effect: the frames enqueued so far are dropped under QUEUE_FLUSH; its end is QUEUE_FLUSH_DONE (R289). -/
def flushQueue (q : Nat) (s : State) : State :=
  let r := emptyQueue q Wh.queueFlush (fetchState q s)
  setQ q { qst r.2 q with flushing := true, flushed := r.1 } r.2

/-- Q.FLUSH kd, ka (R132, R289). -/
def execQFlush (e : EngineId) (kd ka : KReg) (s : State) : Host.Outcome State Fault Refusal :=
  .next (runDev e .q (encDev 0x27 2 kd ka 0 0) kd (fun s =>
    let q := (kget s e ka).toNat
    if 1048576 ≤ q then .done (result rRange 0) s
    else if (qst s q).flushing then .done (result rBusy 0) s
    else .done (result rPending 0) (flushQueue q s)) s)

/-- Q.PIN kd, ka (R132, R434). -/
def execQPin (e : EngineId) (kd ka : KReg) (s : State) : Host.Outcome State Fault Refusal :=
  .next (runDev e .q (encDev 0x27 3 kd ka 0 0) kd (fun s =>
    let q := (kget s e ka).toNat
    if 1048576 ≤ q then .done (result rRange 0) s
    else if (qst s q).pinned then .done (result rOk 0) s
    else if 1024 ≤ s.qm.pins.length then .done (result rFull 0) s
    else
      let s1 := fetchState q s
      let s2 := setQ q { qst s1 q with pinned := true } s1
      .done (result rOk 0) { s2 with qm := { s2.qm with pins := s2.qm.pins ++ [(q, ownerOf s e)] } }) s)

/-- Let the pager move a queue's state again. -/
def unpin (q : Nat) (s : State) : State :=
  let s1 := setQ q { qst s q with pinned := false } s
  { s1 with qm := { s1.qm with pins := s1.qm.pins.filter (fun p => p.1 != q) } }

/-- Q.UNPIN kd, ka (R132). -/
def execQUnpin (e : EngineId) (kd ka : KReg) (s : State) : Host.Outcome State Fault Refusal :=
  .next (runDev e .q (encDev 0x27 4 kd ka 0 0) kd (fun s =>
    let q := (kget s e ka).toNat
    if 1048576 ≤ q then .done (result rRange 0) s
    else if ¬ (qst s q).pinned then .done (result rNotFound 0) s
    else .done (result rOk 0) (unpin q s)) s)

/-- Q.LOCK kd, ka: one of 4,096 lock entries (R132, R289). -/
def execQLock (e : EngineId) (kd ka : KReg) (s : State) : Host.Outcome State Fault Refusal :=
  .next (runDev e .q (encDev 0x27 5 kd ka 0 0) kd (fun s =>
    let q := (kget s e ka).toNat
    if 1048576 ≤ q then .done (result rRange 0) s
    else if (qst s q).locked ∨ 4096 ≤ s.qm.locks.length then .done (result rBusy 0) s
    else
      let s1 := setQ q { qst s q with locked := true } s
      .done (result rOk 0) { s1 with qm := { s1.qm with locks := s1.qm.locks ++ [(q, ownerOf s e)] } }) s)

/-- Give back a queue's lock. -/
def unlock (q : Nat) (s : State) : State :=
  let s1 := setQ q { qst s q with locked := false } s
  { s1 with qm := { s1.qm with locks := s1.qm.locks.filter (fun p => p.1 != q) } }

/-- Q.UNLOCK kd, ka (R132). -/
def execQUnlock (e : EngineId) (kd ka : KReg) (s : State) : Host.Outcome State Fault Refusal :=
  .next (runDev e .q (encDev 0x27 6 kd ka 0 0) kd (fun s =>
    let q := (kget s e ka).toNat
    if 1048576 ≤ q then .done (result rRange 0) s
    else if ¬ s.qm.locks.contains (q, ownerOf s e) then .done (result rNotOwner 0) s
    else .done (result rOk 0) (unlock q s)) s)

end Sys2Proof.Machine
end

