-- ==== Sys2Proof/Machine/Declare.lean ====
section
/-!
DEFINITION. Declaring a party faulted (R271, R434 to R436): the Vat renames what it holds, the Scraper takes it in
declaration order; a pipe stops; a queue's state is rebuilt empty.
-/
namespace Sys2Proof.Machine

/-- A packet pipe. -/
def pipeOf (s : State) (p : Nat) : PipeSt := mget {} s.pipes p

/-- The state with a pipe replaced. -/
def setPipe (p : Nat) (x : PipeSt) (s : State) : State := { s with pipes := mset {} s.pipes p x }

/-- Whether an owner name is one of a pipe's two (R257). -/
def isPipeName (o : Nat) : Bool := ownerKind o == 1 || ownerKind o == 2

/-- The names a declaration takes in: both of a pipe's, one of any other party (R436). -/
def partyNames (o : Nat) : List Nat :=
  if isPipeName o then [ownerName 1 (o % 2 ^ 28), ownerName 2 (o % 2 ^ 28)] else [o]

/-- Whether the Scraper has a party pending or under recovery. -/
def isPending (s : State) (o : Nat) : Bool :=
  s.scraper.pending.any (fun p => (partyNames o).contains p.1)
    || (match s.scraper.current with
      | some c => (partyNames o).contains c
      | none => false)

/-- A declaration joins the Scraper's list, and the Vat takes its names for the Scraper's (R271, R434). -/
def declareParty (o : Nat) (firmware : Bool) (s : State) : State :=
  let names := (partyNames o).filter (fun n => !s.vat.declared.contains n)
  { s with
    scraper := { s.scraper with pending := s.scraper.pending ++ [(o, firmware)] }
    vat := { s.vat with declared := s.vat.declared ++ names } }

/-- The ingress FIFO's frames of a faulted pipe are counted as dropped. -/
def dropFifo : List RxFrame → State → State
  | [], s => s
  | f :: fs, s => dropFifo fs (whey Wh.pipeFault f.port s)

/-- The egress frames of a faulted pipe are dropped. -/
def dropSelected : List EgressItem → State → State
  | [], s => s
  | it :: its, s => dropSelected its (dropDesc it.desc Wh.pipeFault it.port s)

/-- What a pipe's declaration stops at t = 0 (R436): the causes are 0 parity drops, 1 step timeout, 2 FAULT.DECLARE. -/
def faultPipe (p cause : Nat) (s : State) : State :=
  let x := pipeOf s p
  let second := match x.declaredAt with
    | some t => decide (s.now < t + psSec)
    | none => false
  let s1 := dropSelected x.egress (dropFifo x.fifo s)
  let s2 := setPipe p { pipeOf s1 p with
    fifo := []
    egress := []
    faulted := true
    resetDone := false
    heldDown := second
    paused := false
    loading := false
    parityDrops := []
    declaredAt := some s.now } s1
  raise (.pipe p) Ev.pipeFaulted (p + cause * 32 + b2n second * 128)
    { s2 with enqPath := s2.enqPath.filter (fun it => !(partyNames (ownerName 1 p)).contains it.owner) }

/-- Hardware declares a pipe faulted, once (R436). -/
def declarePipe (p cause : Nat) (s : State) : State :=
  if (pipeOf s p).faulted then s else faultPipe p cause (declareParty (ownerName 1 p) false s)

/-- A frame dropped as PARITY by a pipe's own logic counts toward the pipe's declaration (R431, R436). -/
def countLogicDrop (p : Nat) (s : State) : State :=
  let x := pipeOf s p
  let recent := s.now :: x.parityDrops.filter (fun t => decide (s.now < t + psMs))
  let s1 := setPipe p { x with parityDrops := recent } s
  if rwField s .scraper 2 7 0 ≤ recent.length then declarePipe p 0 s1 else s1

/-- The parity drop of a frame in a pipe; `logic` says it was found in the pipe's own logic. -/
def countPipeFlip (p : Nat) (flip : PipeFlip) (s : State) : State :=
  if flip = .logic then countLogicDrop p s else s

/-- The records of a list of buffers, where an owner is named in them, name the Scraper (R271, R434). -/
def renameHolds (o : Nat) (hs : List Nat) (s : State) : State :=
  { s with vat := { s.vat with
      held := s.vat.held.map (fun p => if p.2.owner = o ∧ hs.contains p.1 then (p.1, { p.2 with owner := scraperName }) else p) } }

/-- The handles under which a queue holds what its lists name: descriptors, chains and pages. -/
def queueHandles (s : State) (x : QSt) : List Nat :=
  (x.head ++ x.tail).flatMap (fun i => [handle 7 i, govern s (handle 0 (desc s i).firstCell)])
    ++ x.pages.map (fun p => handle 5 p)

/-- The shaper tokens of a queue whose state is rebuilt from its configuration: the reset value of R307. -/
def freshTokens (c : QCfg) : Int := if c.rate ≠ 0 ∧ c.resetFull then ((c.burst * 256 * tokenParts : Nat) : Int) else 0

/-- A resident queue state fails parity: the queue is declared faulted, in the same clock what it holds is the
Scraper's, and its state is rebuilt empty from its configuration; later enqueues proceed (R271, R434, R435). -/
def declareQueue (q : Nat) (s : State) : State :=
  let o := queueOwner q
  let x := qst s q
  if ¬ x.resident then s
  else
    let old := mget {} s.scraper.taken q
    let s1 := raise .qmgr Ev.queueStateLost q (renameHolds o (queueHandles s x) s)
    let s2 := setQ q { resident := true, pinned := x.pinned, locked := x.locked, flushing := x.flushing,
                       flushed := x.flushed, tokens := freshTokens (qcfg s q), tokensAt := s.now, dirty := true,
                       lastUsed := s.now } s1
    { s2 with
      sched := { s2.sched with
        wheel := mdel s2.sched.wheel q
        wheelAt := mdel s2.sched.wheelAt q }
      scraper := { s2.scraper with
        pending := if isPending s o then s2.scraper.pending else s2.scraper.pending ++ [(o, false)]
        taken := mput s2.scraper.taken q
          { descs := old.descs ++ x.head ++ x.tail, pages := old.pages ++ x.pages
            frames := old.frames + pagedFrames s x } } }

end Sys2Proof.Machine
end

