-- ==== Sys2Proof/Machine/Sched.lean ====
section
/-!
DEFINITION. The scheduler of a pipe: shapers and the Wheel (R305 to R308), levels Q, B and P (R296 to R302),
gates (R312 to R315), flow-control stops (R317, R318) and policers (R309, R310).
-/
namespace Sys2Proof.Machine

/-! ## Shapers (R305, R306) -/

/-- Shaper tokens and the instant of their update after a refill at a rate in Mb/s, capped at the burst in bytes: a ps
at r Mb/s is exactly 32 r parts (R305). -/
def refillTokens (rate burst : Nat) (tokens : Int) (since now : Nat) : Int × Nat :=
  (min ((burst * 256 * tokenParts : Nat) : Int) (tokens + ((now - since) * rate * 32 : Nat)), now)

/-- The instant at which tokens return to 0. -/
def zeroAt (rate : Nat) (tokens : Int) (since : Nat) : Nat :=
  since + ((-tokens).toNat + (rate * 32 - 1)) / (rate * 32)

/-- A queue's shaper refilled to now. -/
def qTokens (s : State) (c : QCfg) (x : QSt) : Int × Nat :=
  if c.rate = 0 then (x.tokens, x.tokensAt) else refillTokens c.rate c.burst x.tokens x.tokensAt s.now

/-- The Wheel's name of a bundle's shaper: 1,048,576 + pipe × 65,536 + node index. -/
def bundleShaper (port b : Nat) : Nat := 1048576 + port * 4096 + b

/-- The length of a slot of a wheel in ps (R306). -/
def wheelSlotPs (w : Nat) : Nat := 2500 * 64 ^ w

/-- The finest wheel of 65,536 slots whose span covers a wait (R306). -/
def wheelFor (wait : Nat) : Nat := ((List.range 3).find? (fun w => decide (wait < 65536 * wheelSlotPs w))).getD 3

/-- The wheel and the slot of a shaper due at an instant: in wheel 0 the first slot not before it, in a coarse wheel the
slot that holds it (R306). -/
def wheelPlace (now due : Nat) : Nat × Nat :=
  let w := wheelFor (due - now)
  (w, if w = 0 then (due + 2499) / 2500 else due / wheelSlotPs w)

/-- Put a shaper on the Wheel, or take it off where `due` is 0. -/
def setWheel (shaper due : Nat) (s : State) : State :=
  { s with sched := { s.sched with
      wheel := mset 0 s.sched.wheel shaper due
      wheelAt := if due = 0 then mdel s.sched.wheelAt shaper else mput s.sched.wheelAt shaper (wheelPlace s.now due) } }

/-- Place a shaper by its tokens: on the Wheel while they are negative (R305). -/
def placeShaper (shaper rate : Nat) (tokens : Int) (since : Nat) (s : State) : State :=
  setWheel shaper (if rate ≠ 0 ∧ tokens < 0 then zeroAt rate tokens since else 0) s

/-! ## Scheduler nodes (R304) -/

/-- A scheduler node image's fields (R304). -/
structure NodeCfg where
  valid : Bool
  strict : Nat
  weight : Nat
  resetFull : Bool
  rate : Nat
  burst : Nat
deriving DecidableEq, Repr

/-- The fields of an image (R304). -/
def NodeCfg.ofImage (v : Nat) : NodeCfg :=
  { valid := bitOf v 0, strict := fieldOf v 3 1, weight := fieldOf v 19 4, resetFull := bitOf v 20
    rate := fieldOf v 52 32, burst := fieldOf v 86 64 }

/-- The node of a bundle in its pipe's generation. -/
def nodeCfg (s : State) (port b : Nat) : NodeCfg :=
  NodeCfg.ofImage (tblGet s (pipeEp s (port / 16)) 0x0E (port / 16) (port % 16 * 4096 + b))

/-- A bundle's key: port × 4,096 + bundle. -/
def bundleKey (port b : Nat) : Nat := port * 4096 + b

/-- A bundle's run state. -/
def bundleRun (s : State) (port b : Nat) : BundleRun := mget {} s.sched.bundles (bundleKey port b)

/-- The state with a bundle's run state replaced. -/
def setBundle (port b : Nat) (x : BundleRun) (s : State) : State :=
  { s with sched := { s.sched with bundles := mset {} s.sched.bundles (bundleKey port b) x } }

/-- A port's run state. -/
def portRun (s : State) (port : Nat) : PortRun := mget {} s.sched.ports port

/-- The state with a port's run state replaced. -/
def setPortRun (port : Nat) (x : PortRun) (s : State) : State :=
  { s with sched := { s.sched with ports := mset {} s.sched.ports port x } }

/-! ## Flow-control stops (R317, R318) -/

/-- Whether a stop holds a queue of a port. -/
def stopped (s : State) (port pfc : Nat) : Bool :=
  mhas s.sched.stops (9 * port) || mhas s.sched.stops (9 * port + 1 + pfc)

/-- The queues of a generation with the egress role: number and configuration. -/
def egressQueues (s : State) (epoch : Nat) : List (Nat × QCfg) :=
  ((bankOf s epoch).tbl.filter (fun p => decide (p.1 / 2 ^ 48 = 0x0D) && decide (p.2 % 4 = 2))).map
    (fun p => (p.1 % 2 ^ 32, QCfg.ofImage p.2))

/-- The egress queues of a port. -/
def portQueues (s : State) (port : Nat) : List (Nat × QCfg) :=
  (egressQueues s (pipeEp s (port / 16))).filter (fun p => p.2.port == port)

/-- Set the deficits of queues to 0. -/
def zeroDeficits : List (Nat × QCfg) → State → State
  | [], s => s
  | p :: ps, s => zeroDeficits ps (setQ p.1 { qst s p.1 with deficit := 0 } s)

/-- A stop takes effect, is renewed or, with an end not after now, ends (R317, R318). `prio` none is PAUSE. -/
def applyStop (port : Nat) (prio : Option Nat) (until_ : Nat) (s : State) : State :=
  let key := match prio with
    | none => 9 * port
    | some i => 9 * port + 1 + i
  if until_ ≤ s.now then { s with sched := { s.sched with stops := mdel s.sched.stops key } }
  else
    let qs := (portQueues s port).filter (fun p => match prio with
      | none => true
      | some i => p.2.pfc == i)
    zeroDeficits qs { s with sched := { s.sched with stops := mput s.sched.stops key until_ } }

/-- The stops that have run out end (R55, R317, R398). -/
def endStops (s : State) : State :=
  { s with sched := { s.sched with stops := s.sched.stops.filter (fun p => decide (s.now < p.2)) } }

/-- PAUSE_STOP_EXPIRY: a stop runs out; a request or a selection of the same clock comes first (R55, R317). -/
def execPauseStopExpiry (port : LaneId) (prio : Option (Fin 8)) (s : State) : Host.Outcome State Fault Refusal :=
  let key := match prio with
    | none => 9 * port.val
    | some i => 9 * port.val + 1 + i.val
  .next (if ¬ arrivalsWait s ∧ mhas s.sched.stops key ∧ mget 0 s.sched.stops key ≤ s.now then
      { s with sched := { s.sched with stops := mdel s.sched.stops key } }
    else s)

/-! ## Level Q (R296, R298) -/

/-- Whether a queue's head may be offered (R296). -/
def queueEligible (s : State) (q : Nat) (c : QCfg) : Bool :=
  let x := qst s q
  match x.head with
  | [] => false
  | i :: _ =>
    let d := desc s i
    x.resident && !x.miss && !epochOlder s.epoch.live d.rind.epoch && !x.locked && !stopped s c.port c.pfc
      && (c.rate == 0 || (!mhas s.sched.wheel q && decide (0 ≤ (qTokens s c x).1)))
      && gateAllows s c.port c.gate (headLength s d.rind c.port)

/-- The queue at a position of a bundle. -/
def queueAt (qs : List (Nat × QCfg)) (pos : Nat) : Option (Nat × QCfg) := qs.find? (fun p => p.2.position == pos)

/-- The first strict position whose queue is eligible. -/
def strictOffer (s : State) (qs : List (Nat × QCfg)) (strict : Nat) : Option Nat :=
  match (List.range strict).find? (fun pos => match queueAt qs pos with
    | some p => queueEligible s p.1 p.2
    | none => false) with
  | some pos => (queueAt qs pos).map (fun p => p.1)
  | none => none

/-- The next weighted position after `pos` that holds a queue, the position itself where no other does. -/
def nextWeighted (qs : List (Nat × QCfg)) (strict pos : Nat) : Nat :=
  let n := 16 - strict
  match (List.range n).find? (fun i => (queueAt qs (strict + (pos - strict + 1 + i) % n)).isSome) with
  | some i => strict + (pos - strict + 1 + i) % n
  | none => pos

/-- Deficit round robin over the weighted positions (R298): the queue offered, the run state and the state. -/
def drrOffer (qs : List (Nat × QCfg)) (strict : Nat) : Nat → BundleRun → State → Option Nat × BundleRun × State
  | 0, b, s => (none, b, s)
  | fuel + 1, b, s =>
    if ¬ qs.any (fun p => decide (strict ≤ p.2.position) && queueEligible s p.1 p.2) then (none, b, s)
    else
      let pos := if b.drr < strict then nextWeighted qs strict 15 else b.drr
      match queueAt qs pos with
      | none => drrOffer qs strict fuel { b with drr := nextWeighted qs strict pos, visited := false } s
      | some (q, c) =>
        let x := qst s q
        if queueEligible s q c then
          let deficit := if b.visited ∧ pos = b.drr then x.deficit else x.deficit + c.quantum
          let s1 := setQ q { x with deficit := deficit } s
          let len := headLength s (desc s (x.head.headD 0)).rind c.port
          if len ≤ deficit then (some q, { b with drr := pos, visited := true }, s1)
          else drrOffer qs strict fuel { b with drr := nextWeighted qs strict pos, visited := false } s1
        else
          let s1 := if x.head = [] ∨ stopped s c.port c.pfc then setQ q { x with deficit := 0 } s else s
          drrOffer qs strict fuel { b with drr := nextWeighted qs strict pos, visited := false } s1

/-- More visits than deficit round robin can take before a head is offered: a quantum is at least 64 bytes and a
head length at most 16,510. -/
def drrFuel : Nat := 16 * 260

/-! ## Level B (R299) -/

/-- Whether tag a is at or before tag b, modulo 2⁴⁸ with a window of 2⁴⁷ (R299). -/
def tagLe (a b : Nat) : Bool := decide ((b + 2 ^ 48 - a % 2 ^ 48) % 2 ^ 48 < 2 ^ 47)

/-- The later of two tags. -/
def tagMax (a b : Nat) : Nat := if tagLe a b then b else a

/-- ⌈L × 65,536 ÷ w⌉. -/
def share (len w : Nat) : Nat := (len * 65536 + (w - 1)) / w

/-- Whether a bundle's own shaper lets it be served. -/
def bundleUnshaped (s : State) (port b : Nat) (n : NodeCfg) : Bool :=
  n.rate == 0 || (!mhas s.sched.wheel (bundleShaper port b)
    && decide (0 ≤ (refillTokens n.rate n.burst (bundleRun s port b).tokens (bundleRun s port b).tokensAt s.now).1))

/-- New tags for a bundle that offers a queue (R299). -/
def newTags (s : State) (port : Nat) (n : NodeCfg) (q : Nat) (r : BundleRun) : BundleRun :=
  let start := tagMax (portRun s port).vtime r.done
  let len := headLength s (desc s ((qst s q).head.headD 0)).rind port
  { r with offer := some q, tagS := start, tagF := (start + share len n.weight) % 2 ^ 48 }

/-- Whether a bundle's standing offer still holds. -/
def offerHolds (s : State) (port b : Nat) (n : NodeCfg) (qs : List (Nat × QCfg)) : Bool :=
  match (bundleRun s port b).offer with
  | none => false
  | some q => n.valid && bundleUnshaped s port b n && qs.any (fun p => p.1 == q && queueEligible s q p.2)

/-- Bring a bundle's offer up to date: an offer that no longer holds is withdrawn in this clock, and a bundle without
one takes a new offer with new tags, after a withdrawal from the next clock (R298, R299). -/
def refreshBundle (port b : Nat) (s : State) : State :=
  let n := nodeCfg s port b
  let qs := (portQueues s port).filter (fun p => p.2.bundle == b)
  let r := bundleRun s port b
  if offerHolds s port b n qs ∨ r.withdrawnAt = s.now + 1 then s
  else if r.offer ≠ none then setBundle port b { r with offer := none, withdrawnAt := s.now + 1 } s
  else
    if ¬ (n.valid ∧ bundleUnshaped s port b n) then setBundle port b r s
    else match strictOffer s qs n.strict with
      | some q => setBundle port b (newTags s port n q r) s
      | none =>
        let o := drrOffer qs n.strict drrFuel r s
        match o.1 with
        | some q => setBundle port b (newTags o.2.2 port n q o.2.1) o.2.2
        | none => setBundle port b o.2.1 o.2.2

/-- Refresh a list of bundles of a port. -/
def refreshBundles (port : Nat) : List Nat → State → State
  | [], s => s
  | b :: bs, s => refreshBundles port bs (refreshBundle port b s)

/-- The bundles of a port that any queue names. -/
def portBundles (s : State) (port : Nat) : List Nat :=
  ((portQueues s port).map (fun p => p.2.bundle)).eraseDups

/-- The bundles of a port that are eligible, lowest first, once refreshed. -/
def eligibleBundles (s : State) (port : Nat) : List Nat :=
  ((s.sched.bundles.filter (fun p => decide (p.1 / 4096 = port) && p.2.offer.isSome)).map (fun p => p.1 % 4096))

/-- The least of a list by an order of tags, the first on a tie. -/
def leastBy (tag : Nat → Nat) : List Nat → Option Nat
  | [] => none
  | b :: bs => match leastBy tag bs with
    | none => some b
    | some c => if tagLe (tag b) (tag c) then some b else some c

/-- The bundle that level B selects (R299). -/
def selectBundle (s : State) (port : Nat) : Option Nat :=
  let es := eligibleBundles s port
  let ready := es.filter (fun b => tagLe (bundleRun s port b).tagS (portRun s port).vtime)
  match leastBy (fun b => (bundleRun s port b).tagF) ready with
  | some b => some b
  | none => leastBy (fun b => (bundleRun s port b).tagS) es

/-- The virtual time and Fdone after a bundle is served (R299). -/
def serveBundle (port b len : Nat) (s : State) : State :=
  let es := eligibleBundles s port
  let w := (es.map (fun e => (nodeCfg s port e).weight)).foldl (· + ·) 0
  let r := bundleRun s port b
  let v := ((portRun s port).vtime + share len w) % 2 ^ 48
  let v1 := match leastBy (fun e => (bundleRun s port e).tagS) (es.filter (fun e => e != b)) with
    | some e => tagMax v (bundleRun s port e).tagS
    | none => v
  setBundle port b { r with done := r.tagF, offer := none }
    (setPortRun port { portRun s port with vtime := v1 } s)

/-! ## Level P and a selection (R301, R302) -/

/-- The largest head length. -/
def maxHead : Nat := 16510

/-- A port's budget refilled to now at its MAC payload rate: a ps at r Mb/s is exactly 8,192 r parts (R301). -/
def refillBudget (s : State) (port : Nat) : PortRun :=
  let r := portRun s port
  let rate := modeMbps (laneMode s port)
  { r with
    budget := min ((maxHead * 65536 * tokenParts : Nat) : Int) (r.budget + ((s.now - r.budgetAt) * rate * 8192 : Nat))
    budgetAt := s.now }

/-- A port becomes up: its budget is at its cap (R301). -/
def fillBudget (port : Nat) (s : State) : State :=
  setPortRun port { portRun s port with budget := ((maxHead * 65536 * tokenParts : Nat) : Int), budgetAt := s.now } s

/-- Whether a port may take a frame now (R301). -/
def portTakes (s : State) (port : Nat) : Bool :=
  portExists s port && (mget {} s.macs port).up && decide (0 ≤ (refillBudget s port).budget)

/-- Charge a head length to a queue's deficit and shaper (R298, R305). -/
def chargeQueue (q : Nat) (c : QCfg) (weighted : Bool) (len : Nat) (s : State) : State :=
  let x := qst s q
  let t := qTokens s c x
  let tokens := if c.rate = 0 then x.tokens else t.1 - (len * 256 * tokenParts : Nat)
  placeShaper q c.rate tokens t.2
    (setQ q { x with
      deficit := if weighted then x.deficit - len else x.deficit
      tokens := tokens
      tokensAt := t.2 } s)

/-- Charge a head length to a bundle's shaper (R305). -/
def chargeBundle (port b : Nat) (n : NodeCfg) (len : Nat) (s : State) : State :=
  if n.rate = 0 then s
  else
    let r := bundleRun s port b
    let t := refillTokens n.rate n.burst r.tokens r.tokensAt s.now
    let tokens := t.1 - (len * 256 * tokenParts : Nat)
    placeShaper (bundleShaper port b) n.rate tokens t.2
      (setBundle port b { r with tokens := tokens, tokensAt := t.2 } s)

/-- Charge a head length to a port's budget, and note when the frame ends on the wire (R301). -/
def chargePort (port len : Nat) (s : State) : State :=
  setPortRun port { refillBudget s port with
    budget := (refillBudget s port).budget - (len * 65536 * tokenParts : Nat)
    wireEnd := firstByteAt s port + wirePs s port len } s

/-- Serve the offered head of a bundle: it is selected for the port (R298 to R302). -/
def serveOffer (port b q : Nat) (s : State) : State :=
  match (qst s q).head with
  | [] => s
  | i :: _ =>
    let c := qcfg s q
    let n := nodeCfg s port b
    let len := headLength s (desc s i).rind port
    let item : EgressItem :=
      { desc := i, queue := q, port := port, selectedAt := s.now, charged := len, bundle := b }
    let s1 := serveBundle port b len s
    let s2 := chargePort port len (chargeBundle port b n len (chargeQueue q c (decide (n.strict ≤ c.position)) len s1))
    let s3 := setPipe (port / 16) { pipeOf s2 (port / 16) with egress := (pipeOf s2 (port / 16)).egress ++ [item] } s2
    let s4 := perfEvent { code := 0x012, master := port / 16, cls := some (q % 8) } s3
    refreshBundle port b (popHead q (perfEvent { code := 0x013, master := port / 16, cls := some (q % 8), amount := len } s4))

/-- Refresh the bundles of ports. -/
def refreshPorts : List Nat → State → State
  | [], s => s
  | port :: ps, s => refreshPorts ps (refreshBundles port (portBundles s port) s)

/-- The ports that egress queues name in the generations their pipes run under. -/
def scheduledPorts (s : State) : List Nat :=
  ((egressQueues s s.epoch.live ++ egressQueues s (s.epoch.live + 1)).map (fun p => p.2.port)).eraseDups

/-- In every core clock each bundle's offer is brought up to date (R298, R299). -/
def refreshOffers (s : State) : State :=
  refreshPorts ((scheduledPorts s).filter (fun port => pipeReady s (port / 16))) s

/-- EGRESS_SELECTION: level P takes the next port in round robin that may take a frame and has an eligible bundle,
level B its bundle, level Q its head (R298 to R302). A faulted pipe selects none (R436). -/
def execEgressSelection (pipe : PipeId) (flip : Option QueueId) (s0 : State) : Host.Outcome State Fault Refusal :=
  let p := pipe.val
  let s := match flip with
    | some q => if (qcfg s0 q.val).role = 2 ∧ (qcfg s0 q.val).pipe = p then declareQueue q.val s0 else s0
    | none => s0
  if (pipeOf s p).faulted then .next s
  else
    let s1 := refreshPorts ((List.range 16).map (fun n => 16 * p + n)) s
    let start := mget 0 s1.sched.roundRobin p
    let order := (List.range 16).map (fun i => (start + i) % 16)
    match order.find? (fun n => portTakes s1 (16 * p + n) && (selectBundle s1 (16 * p + n)).isSome) with
    | none => .next s1
    | some n =>
      let port := 16 * p + n
      let s2 := { s1 with sched := { s1.sched with roundRobin := mset 0 s1.sched.roundRobin p ((n + 1) % 16) } }
      match selectBundle s2 port with
      | none => .next s2
      | some b => match (bundleRun s2 port b).offer with
        | none => .next s2
        | some q => .next (serveOffer port b q s2)

/-- EPOCH_DRAIN_EXPIRY: the wait of a head passes epoch_drain_limit (R60, R296). -/
def execEpochDrainExpiry (q : QueueId) (s : State) : Host.Outcome State Fault Refusal :=
  .next (testHeads q s)

/-- WHEEL_RELEASE: a shaper whose eligible time is reached leaves the Wheel; before that time a shaper whose coarse slot
is reached is placed again by its remaining wait (R306). -/
def execWheelRelease (shaper : Nat) (s : State) : Host.Outcome State Fault Refusal :=
  let due := mget 0 s.sched.wheel shaper
  let slot := mget (0, 0) s.sched.wheelAt shaper
  if due = 0 then .next s
  else if s.now < due then .next (if slot.2 * wheelSlotPs slot.1 ≤ s.now then setWheel shaper due s else s)
  else
    let s1 := setWheel shaper 0 s
    .next (if due + 2500 < s.now then
        { s1 with sched := { s1.sched with wheelLate := (s1.sched.wheelLate + 1) % 2 ^ 32 } }
      else s1)

/-- The credit of a frame's unused head length to the shapers that were charged (R297). -/
def creditShapers (it : EgressItem) (edited : Nat) (s : State) : State :=
  let len := counted ((edited : Int) + portOverhead s it.port)
  let back : Int := ((it.charged : Int) - len) * 256 * (tokenParts : Nat)
  let c := qcfg s it.queue
  let s1 :=
    if c.rate = 0 then s
    else
      let x := qst s it.queue
      let t := qTokens s c x
      let tokens := min (t.1 + back) ((c.burst * 256 * tokenParts : Nat) : Int)
      placeShaper it.queue c.rate tokens t.2 (setQ it.queue { x with tokens := tokens, tokensAt := t.2 } s)
  let n := nodeCfg s1 it.port it.bundle
  if n.rate = 0 then s1
  else
    let r := bundleRun s1 it.port it.bundle
    let t := refillTokens n.rate n.burst r.tokens r.tokensAt s1.now
    let tokens := min (t.1 + back) ((n.burst * 256 * tokenParts : Nat) : Int)
    placeShaper (bundleShaper it.port it.bundle) n.rate tokens t.2
      (setBundle it.port it.bundle { r with tokens := tokens, tokensAt := t.2 } s1)

/-! ## Gates in operation (R312, R315) -/

/-- The state with a port's gates replaced. -/
def setGates (port : Nat) (g : GateRun) (s : State) : State :=
  { s with sched := { s.sched with gates := mset {} s.sched.gates port g } }

/-- The entry in operation at an offset of the cycle in units: the last entry holds to the cycle's end (R312). -/
def entryAt : List (Nat × Nat) → Nat → Nat → Nat → Nat
  | [], k, _, _ => k
  | [_], k, _, _ => k
  | e :: es, k, t, off => if off < (t + e.2) * nsUnits then k else entryAt es (k + 1) (t + e.2) off

/-- The gates with the entry and states of the time of day. -/
def GateRun.sync (g : GateRun) (t : Nat) : GateRun :=
  match g.running with
  | none => { g with entry := 0, states := 0xFFFF }
  | some l => { g with entry := entryAt l.entries 0 0 (l.offset t), states := l.statesAt t }

/-- Test the heads of a list of queues. -/
def testQueues : List (Nat × QCfg) → State → State
  | [], s => s
  | p :: ps, s => testQueues ps (testHeads p.1 s)

/-- GATE_ENTRY_ADVANCE: the entry of this time and its states take effect (R312). -/
def execGateEntryAdvance (port : LaneId) (s : State) : Host.Outcome State Fault Refusal :=
  let g := gateRun s port
  .next (match g.running with
    | none => s
    | some l => if l.start ≤ tileTime s port then setGates port (g.sync (tileTime s port)) s else s)

/-- GATE_LIST_START: a pending change starts at its computed time, and the heads of the port are tested (R296,
R315). -/
def execGateListStart (port : LaneId) (s : State) : Host.Outcome State Fault Refusal :=
  let g := gateRun s port
  match g.pending with
  | none => .next s
  | some l =>
    if tileTime s port < l.start then .next s
    else
      let g1 := { g with running := if g.pendingOff then none else some l, pending := none, pendingOff := false }
      .next (testQueues (portQueues s port) (setGates port (g1.sync (tileTime s port)) s))

/-- The list entries of a port in a generation, within list_length (R312, R316). -/
def gateEntries (s : State) (epoch port : Nat) : List (Nat × Nat) :=
  let n := rwlFieldAt s epoch (.gate (port / 16)) (16 * (port % 16)) 11 1
  (List.range n).map (fun i =>
    let v := tblGet s epoch 0x0F port i
    (fieldOf v 15 0, fieldOf v 61 32))

/-- The base time of a port's list in a generation, in units. -/
def gateBase (s : State) (epoch port : Nat) : Nat :=
  let b := Block.gate (port / 16)
  let r := 16 * (port % 16)
  (rwlFieldAt s epoch b (r + 3) 31 0 + rwlFieldAt s epoch b (r + 4) 31 0 * 2 ^ 32) * secUnits
    + rwlFieldAt s epoch b (r + 2) 29 0 * nsUnits

/-- What a commit compares to decide whether a new list starts on a port (R315). -/
def gateSettings (s : State) (epoch port : Nat) : List Nat × List (Nat × Nat) :=
  let b := Block.gate (port / 16)
  let r := 16 * (port % 16)
  ((List.range 5).map (fun k => (bankOf s epoch).rwlBits b (r + k)), gateEntries s epoch port)

/-- The start of a new list: the first base_time + n × cycle_time at or after t_c + 2 × cycle_time (R315). -/
def gateStart (base cycle tc : Nat) : Nat :=
  let c := cycle * nsUnits
  if tc + 2 * c ≤ base then base else base + (tc + 2 * c - base + (c - 1)) / c * c

/-- A commit at time of day t_c from generation `old` to `new` starts a new list on a port it changes (R315). -/
def commitGates (old new tc port : Nat) (s : State) : State :=
  if gateSettings s old port = gateSettings s new port then s
  else
    let b := Block.gate (port / 16)
    let cycle := rwlFieldAt s new b (16 * (port % 16) + 1) 29 0
    let start := gateStart (gateBase s new port) cycle tc
    let on := rwlFieldAt s new b (16 * (port % 16)) 0 0 = 1
    let g := gateRun s port
    if ¬ on ∧ g.running = none ∧ g.pending = none then s
    else setGates port { g with
      pending := some { entries := gateEntries s new port, cycle := cycle, start := start }
      pendingOff := decide (¬ on)
      startTime := start } s

/-! ## Policers (R309, R310) -/

/-- Units of 10⁻⁹ bit in a byte. -/
def byteUnits : Nat := 8000000000

/-- A policer's buckets refilled to now under an image (R310). -/
def refillPolicer (img : Nat) (r : PolicerRun) (now : Nat) : PolicerRun :=
  let cbs := fieldOf img 123 96 * byteUnits
  let pbs := fieldOf img 155 128 * byteUnits
  if r.updated = 0 then { tc := cbs, tp := pbs, updated := now + 1 }
  else
    let dt := now + 1 - r.updated
    let c := r.tc + dt * fieldOf img 63 32
    let p := r.tp + dt * fieldOf img 95 64
    let spill := if bitOf img 1 && bitOf img 3 then c - cbs else 0
    { tc := min c cbs, tp := min (p + spill) pbs, updated := now + 1 }

/-- The colour of a frame of `len` counted bytes with a pre-colour (0 green, 1 yellow, else red), and the buckets
after it (R310). -/
def policeColour (img pre len : Nat) (r : PolicerRun) : Nat × PolicerRun :=
  let b := len * byteUnits
  if bitOf img 1 then
    if pre = 0 ∧ b ≤ r.tc then (0, { r with tc := r.tc - b })
    else if pre ≤ 1 ∧ b ≤ r.tp then (1, { r with tp := r.tp - b })
    else (2, r)
  else
    if 2 ≤ pre ∨ r.tp < b then (2, r)
    else if pre = 1 ∨ r.tc < b then (1, { r with tp := r.tp - b })
    else (0, { r with tp := r.tp - b, tc := r.tc - b })

/-- POLICE in a pipe: the colour, and the state after it (R309 to R311). -/
def policeOp (pipe epoch idx pre len : Nat) (s : State) : Nat × State :=
  if idx / 8192 ≠ pipe then
    (2, { s with sched := { s.sched with
      foreign := mset 0 s.sched.foreign pipe ((mget 0 s.sched.foreign pipe + 1) % 2 ^ 32) } })
  else
    let img := tblGet s epoch 0x09 0 idx
    if ¬ bitOf img 0 then (0, s)
    else
      let r := policeColour img (if bitOf img 2 then pre else 0) len
        (refillPolicer img (mget {} s.sched.policers idx) s.now)
      (r.1, { s with sched := { s.sched with policers := mset {} s.sched.policers idx r.2 } })

end Sys2Proof.Machine
end

