-- ==== Sys2Proof/Machine/Link.lean ====
section
/-!
DEFINITION. Lane groups of the port arrangement (R321, R391 to R393) and the Skov link layer (R324 to R334): cells,
numbering, credits, replay, the live set, and a link's death.
-/
namespace Sys2Proof.Machine

/-! ## Lane groups -/

/-- A port or Skov link: its lowest lane, its number of lanes and whether it is a link. -/
structure LaneGroup where
  lowest : Nat
  count : Nat
  link : Bool
deriving DecidableEq, Repr

/-- Whether a group has a lane. -/
def LaneGroup.has (g : LaneGroup) (n : Nat) : Bool := decide (g.lowest ≤ n) && decide (n < g.lowest + g.count)

/-- The lanes of a group. -/
def LaneGroup.lanes (g : LaneGroup) : List Nat := (List.range g.count).map (fun i => g.lowest + i)

/-- A field of SKOV_CFG of link n in a generation. -/
def skovField (s : State) (epoch n hi lo : Nat) : Nat := rwlFieldAt s epoch (.skov n) 0 hi lo

/-- Whether lane n is the lowest of an enabled Skov link in a generation. -/
def linkEnabled (s : State) (epoch n : Nat) : Bool :=
  laneModeAt s epoch n == 0xF && skovField s epoch n 0 0 == 1

/-- The ports of a pipe in a generation. -/
def portGroups (s : State) (epoch p : Nat) : List LaneGroup :=
  ((List.range 16).map (fun i => 16 * p + i)).filterMap (fun n =>
    let c := laneModeAt s epoch n
    if 1 ≤ c ∧ c ≤ 0xC then some { lowest := n, count := modeLanes c, link := false } else none)

/-- Whether a link reaches a lane that a port holds, that carries a mode code, or that lies past the pipe (R393). -/
def linkConflict (s : State) (epoch n : Nat) : Bool :=
  let count := skovField s epoch n 3 1 + 1
  (List.range count).any (fun i =>
    let k := n + i
    i != 0 && (decide (k / 16 ≠ n / 16) || laneModeAt s epoch k != 0
      || (portGroups s epoch (n / 16)).any (fun g => g.has k)))

/-- The link of a lower number that holds an enabled link's slot, if any (R321). -/
def slotHolder (s : State) (epoch n : Nat) : Option Nat :=
  (List.range n).find? (fun m => linkEnabled s epoch m && skovField s epoch m 9 4 == skovField s epoch n 9 4)

/-- The ports and Skov links of a pipe in a generation that hold their lanes. -/
def laneGroups (s : State) (epoch p : Nat) : List LaneGroup :=
  portGroups s epoch p ++ ((List.range 16).map (fun i => 16 * p + i)).filterMap (fun n =>
    if linkEnabled s epoch n ∧ ¬ linkConflict s epoch n ∧ (slotHolder s epoch n).isNone then
      some { lowest := n, count := skovField s epoch n 3 1 + 1, link := true }
    else none)

/-- The port or link that holds a lane under its pipe's generation. -/
def laneGroup (s : State) (n : Nat) : Option LaneGroup :=
  (laneGroups s (pipeEp s (n / 16)) (n / 16)).find? (fun g => g.has n)

/-! ## Links and the live set -/

/-- A link's state. -/
def linkOfNo (s : State) (n : Nat) : LinkSt := mget {} s.fabric.links n

/-- The state with a link replaced. -/
def setLink (n : Nat) (x : LinkSt) (s : State) : State :=
  { s with fabric := { s.fabric with links := mset {} s.fabric.links n x } }

/-- A link's slot. -/
def linkSlot (s : State) (n : Nat) : Nat := skovField s (pipeEp s (n / 16)) n 9 4

/-- Live links in the order of their slots: slot and link. -/
def liveLinks (s : State) : List (Nat × Nat) :=
  let ls := (s.fabric.links.filter (fun p => p.2.live)).map (fun p => (linkSlot s p.1, p.1))
  (List.range 64).flatMap (fun k => ls.filter (fun p => p.1 == k))

/-- Whether the unit takes part in a system (R320). -/
def fabricOn (s : State) : Bool := rwlField s .fabric 0 0 0 == 1

/-- What this unit knows of another. -/
def peerOf (s : State) (u : Nat) : PeerUnit := mget {} s.roll.peers u

/-- The state with another unit's record replaced. -/
def setPeer (u : Nat) (x : PeerUnit) (s : State) : State :=
  { s with roll := { s.roll with peers := mset {} s.roll.peers u x } }

/-- Count a discarded cell (R326, R334, R353). -/
def dropCell (s : State) : State :=
  { s with fabric := { s.fabric with cellDrops := (s.fabric.cellDrops + 1) % 2 ^ 32 } }

/-! ## Cells -/

/-- The cell types of R326. -/
def cLink : Nat := 0
/-- See `cLink`. -/
def cData : Nat := 1
/-- See `cLink`. -/
def cRequest : Nat := 2
/-- See `cLink`. -/
def cGrant : Nat := 3
/-- See `cLink`. -/
def cRoll : Nat := 4
/-- See `cLink`. -/
def cBeat : Nat := 5
/-- See `cLink`. -/
def cWithdraw : Nat := 6

/-- The partition of a cell, where its type has one (R329). -/
def partitionOf (type hops : Nat) : Option Nat :=
  if type = cData then some (hops - 1)
  else if cRequest ≤ type ∧ type ≤ cBeat then some (2 + hops)
  else none

/-- The 16-byte header of a cell (R325). -/
def cellHeader (c : TxCell) (ack part count : Nat) : List Byte :=
  beBytes 4 (c.type * 2 ^ 28 + c.hops * 2 ^ 26 + c.seq * 2 ^ 12 + ack)
    ++ beBytes 4 (c.dest * 2 ^ 22 + c.source * 2 ^ 12 + 2 ^ 11 + b2n c.first * 2 ^ 10 + b2n c.last * 2 ^ 9 + c.length)
    ++ beBytes 4 (c.tag * 2 ^ 8 + part * 2 ^ 5 + count)
    ++ beBytes 4 (c.grant * 2 ^ 16 + b2n c.valiant * 2 ^ 15 + c.index * 2 ^ 8)

/-- The 276 bytes of a cell: header, payload, CRC-32C (R324). -/
def cellBytes (header payload : List Byte) : List Byte :=
  let body := header ++ payload ++ List.replicate (256 - payload.length) 0
  body ++ beBytes 4 (crc32c 0 body)

/-- The partition whose credits go back next, and how many (R325). -/
def creditOut (x : LinkSt) : Nat × Nat :=
  match x.owed with
  | [] => (0, 0)
  | (p, n) :: _ => (p, min n 31)

/-- Owe the peer of a link the credit of a cell that has left its partition of the receiver's buffer (R329). -/
def oweCredit (o : Option (Nat × Nat)) (s : State) : State :=
  match o with
  | none => s
  | some (n, p) =>
    let x := linkOfNo s n
    setLink n { x with owed := mset 0 x.owed p (mget 0 x.owed p + 1) } s

/-- The credits that the cells of a list hold go back. -/
def oweCredits : List TxCell → State → State
  | [], s => s
  | c :: cs, s => oweCredits cs (oweCredit c.owes s)

/-- The link and partition whose credit a cell received on a link takes, where its type has a partition (R329). -/
def creditOf (n : Nat) (c : TxCell) : Option (Nat × Nat) := (partitionOf c.type c.hops).map (fun p => (n, p))

/-- Put one cell on the wire with the link's acknowledgement and the credits it returns. -/
def putCell (n : Nat) (c : TxCell) (s : State) : State :=
  let x := linkOfNo s n
  let cr := creditOut x
  let h := cellHeader c x.rxSeq cr.1 cr.2
  let s1 := setLink n { x with
    owed := mset 0 x.owed cr.1 (mget 0 x.owed cr.1 - cr.2)
    sentAt := s.now } s
  emit (if c.msg = .plain then .cell n (cellBytes h c.payload) else .message n h c.msg)
    (perfEvent { code := 0x040, master := 0x37 } s1)

/-- Cells that the replay buffer of a link holds (R328). -/
def replayRoom (s : State) (n : Nat) : Nat :=
  8192 * (skovField s (pipeEp s (n / 16)) n 3 1 + 1) / 276

/-- Whether a link can send a cell now: replay room and a credit of its partition (R328, R329), and an admission of
this unit where the cell is DATA (R354). -/
def canPut (s : State) (n : Nat) (c : TxCell) : Bool :=
  let x := linkOfNo s n
  decide (x.replay.length < replayRoom s n) && (c.type != cData || s.roll.admitted)
    && (match partitionOf c.type c.hops with
    | some p => decide (0 < mget 0 x.credits p)
    | none => true)

/-- Send one waiting cell: number it, spend its credit, keep it for replay; a relayed cell gives back the credit it
held (R328, R329). -/
def sendNext (n : Nat) (c : TxCell) (s : State) : State :=
  let x := linkOfNo s n
  let c1 := { c with
    seq := x.txSeq
    owes := none }
  let credits := match partitionOf c.type c.hops with
    | some p => mset 0 x.credits p (mget 0 x.credits p - 1)
    | none => x.credits
  oweCredit c.owes (putCell n c1 (setLink n { x with
    waiting := x.waiting.erase c
    replay := x.replay ++ [c1]
    credits := credits
    busyAt := s.now
    txSeq := (x.txSeq + 1) % 4096 } s))

/-- Send what a link can send: control cells ahead of DATA (R329). -/
def pumpLoop (n : Nat) : Nat → State → State
  | 0, s => s
  | fuel + 1, s =>
    let x := linkOfNo s n
    let order := x.waiting.filter (fun c => c.type != cData) ++ x.waiting.filter (fun c => c.type == cData)
    match order.find? (canPut s n) with
    | none => s
    | some c => pumpLoop n fuel (sendNext n c s)

/-- Whether the transmit direction of a lane group rests or wakes, or its link is stopped (R383, R384, R440). -/
def txAsleep (s : State) (n : Nat) : Bool :=
  s.triad.stopped.contains n || (mget {} s.lanes n).txRest || decide (s.now < (mget {} s.lanes n).wakeUntil)

/-- Send what a link can send, unless its direction rests or wakes; nothing while the fabric is off (R320). -/
def pump (n : Nat) (s : State) : State :=
  if fabricOn s ∧ (linkOfNo s n).up ∧ ¬ txAsleep s n then pumpLoop n (linkOfNo s n).waiting.length s else s

/-- Send what the links of a list can send. -/
def pumpAll : List Nat → State → State
  | [], s => s
  | n :: ns, s => pumpAll ns (pump n s)

/-- Put a cell in a link's transmit queue; while the fabric is off there is none to send (R320). -/
def queueCell (n : Nat) (c : TxCell) (s : State) : State :=
  let x := linkOfNo s n
  if fabricOn s then setLink n { x with waiting := x.waiting ++ [c] } s else s

/-- Give a cell to a link's transmit queue, and send what the link can send. -/
def pushCell (n : Nat) (c : TxCell) (s : State) : State := pump n (queueCell n c s)

/-- Send a LINK cell; `nak` names the expected number in ack_seq (R326, R328). -/
def sendLinkCell (n : Nat) (nak : Bool) (s : State) : State :=
  if s.triad.stopped.contains n ∨ ¬ fabricOn s then s else putCell n { type := cLink, payload := [BitVec.ofNat 8 (b2n nak)] } s

/-! ## Routes (R331 to R334) -/

/-- The unit route table's first (false) or relay (true) mask toward a unit. -/
def routeMask (s : State) (relay : Bool) (d : Nat) : Nat :=
  let v := tblGet s s.epoch.live 0x11 0 d
  if relay then fieldOf v 127 64 else fieldOf v 63 0

/-- The usable links of a mask toward a unit, in the order of their slots (R332, R334). -/
def usable (s : State) (mask d : Nat) : List Nat :=
  ((liveLinks s).filter (fun p => bitOf mask p.1 && !(linkOfNo s p.2).withdrawn.contains d)).map (fun p => p.2)

/-- The link whose transmit queue holds the fewest cells, the first of a list on a tie (R332). -/
def leastLoaded (s : State) : List Nat → Option Nat
  | [] => none
  | n :: ns =>
    match leastLoaded s ns with
    | none => some n
    | some m => if (linkOfNo s m).waiting.length < (linkOfNo s n).waiting.length then some m else some n

/-- Put a routed cell on the transmit queue of a link of a mask's usable set: the link, none where the set is empty or
the cell's destination has been declared lost (R332, R353). -/
def placeCell (mask : Nat) (c : TxCell) (s : State) : Option Nat × State :=
  if (peerOf s c.dest).lost then (none, s)
  else match leastLoaded s (usable s mask c.dest) with
    | none => (none, s)
    | some n => (some n, queueCell n c s)

/-- Send a routed cell of this unit over the usable set of a mask; false where it goes nowhere. -/
def sprayCell (mask : Nat) (c : TxCell) (s : State) : Bool × State :=
  match placeCell mask c s with
  | (none, s1) => (false, if (peerOf s c.dest).lost then dropCell s1 else s1)
  | (some n, s1) => (true, pump n s1)

/-- The 1,024-bit map of a WITHDRAW cell: destination d at bit d mod 8 of byte d ÷ 8. -/
def withdrawMap (ds : List Nat) : List Byte :=
  (List.range 128).map (fun i =>
    BitVec.ofNat 8 (((List.range 8).map (fun k => if ds.contains (8 * i + k) then 2 ^ k else 0)).foldl (· + ·) 0))

/-- The destinations of a map. -/
def withdrawnOf (payload : List Byte) : List Nat :=
  (List.range 1024).filter (fun d => bitOf (byteAt payload (d / 8)).toNat (d % 8))

/-- Put a WITHDRAW cell on every live link of a list. -/
def sendWithdraw (ds : List Nat) : List Nat → State → State
  | [], s => s
  | n :: ns, s => sendWithdraw ds ns (pushCell n
      { type := cWithdraw, length := 128, payload := withdrawMap ds } s)

/-- The destinations that the relay sets reach. -/
def relayReach (s : State) : List Nat :=
  (List.range 1024).filter (fun d => !(usable s (routeMask s true d) d).isEmpty)

/-- The destinations whose relay set is empty though the tables name a link for it, or a link served it before. -/
def relayLost (s : State) (reach : List Nat) : List Nat :=
  (List.range 1024).filter (fun d => !reach.contains d
    && (routeMask s true d != 0 || s.fabric.unreachable.contains d || s.fabric.relayable.contains d))

/-- Follow the relay sets: a set that becomes empty or is no longer empty is told to the neighbours (R334). -/
def followRoutes (s : State) : State :=
  let reach := relayReach s
  let lost := relayLost s reach
  let s0 := { s with fabric := { s.fabric with
    unreachable := lost
    relayable := reach } }
  if lost = s.fabric.unreachable then s0
  else
    let fresh := lost.filter (fun d => !s.fabric.unreachable.contains d)
    let s1 := sendWithdraw lost ((liveLinks s0).map (fun p => p.2)) s0
    match fresh with
    | [] => s1
    | d :: _ => raise .fabric Ev.routeWithdrawn (d + lost.length * 2 ^ 10) s1

/-! ## A link comes up and dies -/

/-- A trained link passes cells; its receiver owes the peer every partition's credits (R329). -/
def linkUp (n : Nat) (s : State) : State :=
  let x := linkOfNo s n
  setLink n { x with
    up := true, dead := false, live := false, txSeq := 0, rxSeq := 0, waiting := [], replay := [], credits := []
    owed := ((List.range 6).map (fun p => (p, Sys2Proof.Config.linkCells p))).filter (fun p => p.2 != 0)
    stuck := 0, heardAt := s.now, sentAt := s.now, peerNumbered := false, withdrawn := [] } s

/-- No cell holds a credit of a link whose partitions start anew (R329). -/
def forgetOwed (n : Nat) (s : State) : State :=
  let clear := fun (c : TxCell) => if c.owes.map (fun o => o.1) = some n then { c with owes := none } else c
  { s with fabric := { s.fabric with
      links := s.fabric.links.map (fun p => (p.1, { p.2 with waiting := p.2.waiting.map clear })) } }

/-- A link dies: it leaves the live set, and the cells on it and in its replay buffer are lost (R53, R330). -/
def linkDown (n cause : Nat) (s : State) : State :=
  let x := linkOfNo s n
  if ¬ x.up then s
  else
    let s1 := forgetOwed n (oweCredits x.waiting (setLink n { x with
      up := false, dead := true, live := false, waiting := [], replay := []
      deaths := (x.deaths + 1) % 2 ^ 32 } s))
    followRoutes (raiseAt (blockPlace (.skov n)) Ev.linkDown
      (n + linkSlot s n * 2 ^ 9 + x.peerUnit * 2 ^ 15 + cause * 2 ^ 25) x.peerIncarnation s1)

end Sys2Proof.Machine
end

