-- ==== Sys2Proof/Machine/Lookup.lean ====
section
/-!
DEFINITION. What a pipe's lookups do: tree walks (R183 to R188), the fragment table (R196 to R201), the layer-2
table and its learner's queue (R206 to R212), route searches (R225 to R233), next hops and ECMP groups (R244 to
R247), flow counters (R518).
-/
namespace Sys2Proof.Machine

/-! ## Tree walks -/

/-- A rule-set root's fields (R183). -/
structure TreeRoot where
  valid : Bool
  keyBase : Nat
  keyRegs : Nat
  rootNode : Nat
  regionBase : Nat
  regionCount : Nat
deriving DecidableEq, Repr

/-- The fields of a root image. -/
def TreeRoot.ofImage (v : Nat) : TreeRoot :=
  { valid := bitOf v 0, keyBase := fieldOf v 6 1, keyRegs := fieldOf v 10 7, rootNode := fieldOf v 51 32
    regionBase := fieldOf v 83 64, regionCount := fieldOf v 115 96 }

/-- A rule set's root in the generation of an epoch. -/
def treeRoot (s : State) (epoch rs : Nat) : TreeRoot := TreeRoot.ofImage (tblGet s epoch 0x07 rs 0)

/-- Whether an entry lies in a root's region. -/
def TreeRoot.covers (r : TreeRoot) (n : Nat) : Bool :=
  decide (r.regionBase ≤ n) && decide (n < r.regionBase + r.regionCount)

/-- An entry of tree memory; 0, which is empty, where nothing was written. -/
def treeNode (s : State) (n : Nat) : Nat := mget 0 s.tree.nodes n

/-- How a walk ends (R186, R187). -/
inductive WalkEnd where
  | error (depth : Nat)
  | miss (depth : Nat)
  | hit (depth position priority result : Nat)
deriving DecidableEq, Repr

/-- LOOKUP.TREE's destination (R187). -/
def WalkEnd.value : WalkEnd → Nat
  | .error d => 2 ^ 62 + d * 2 ^ 56
  | .miss d => d * 2 ^ 56
  | .hit d p pr r => 2 ^ 63 + d * 2 ^ 56 + p * 2 ^ 52 + pr * 2 ^ 32 + r

/-- Bytes of a rule of a rule set (R185). -/
def ruleSize (keyRegs : Nat) : Nat := if keyRegs ≤ 3 then 32 else if keyRegs ≤ 7 then 64 else 128

/-- The number of the bytes of a rule that starts at a byte offset of tree memory. -/
def ruleAt (s : State) (off size : Nat) : Nat :=
  if size = 128 then treeNode s (off / 64) + treeNode s (off / 64 + 1) * 2 ^ 512
  else treeNode s (off / 64) / 2 ^ (8 * (off % 64))

/-- Whether a rule matches a key (R186). -/
def ruleMatches (rule : Nat) (key : List Nat) : Bool :=
  (key.zipIdx).all (fun p =>
    ((p.1 ^^^ fieldOf rule (95 + 64 * p.2) (64 + 64 * p.2)) &&& fieldOf rule (127 + 64 * p.2) (96 + 64 * p.2)) == 0)

/-- The best of the rules that match: position, priority, result; the lowest priority, then the lowest position. -/
def bestRule (s : State) (key : List Nat) (start size : Nat) : List Nat → Option (Nat × Nat × Nat)
  | [] => none
  | p :: ps =>
    let r := ruleAt s (start + p * size) size
    let rest := bestRule s key start size ps
    if ruleMatches r key then
      match rest with
      | some b => if b.2.1 < fieldOf r 21 2 then some b else some (p, fieldOf r 21 2, fieldOf r 63 32)
      | none => some (p, fieldOf r 21 2, fieldOf r 63 32)
    else rest

/-- A leaf (R185, R186). -/
def walkLeaf (s : State) (root : TreeRoot) (key : List Nat) (e depth : Nat) : WalkEnd :=
  let n := fieldOf e 6 2
  let size := ruleSize root.keyRegs
  let start := fieldOf e 51 32 * 64 + fieldOf e 52 52 * 32
  if fieldOf e 52 52 = 1 ∧ size ≠ 32 then .error depth
  else if n = 0 then .miss depth
  else if ¬ (root.covers (start / 64) ∧ root.covers ((start + n * size - 1) / 64)) then .error depth
  else match bestRule s key start size (List.range n) with
    | some b => .hit depth b.1 b.2.1 b.2.2
    | none => .miss depth

/-- The walk from a node at a depth; at most 24 nodes (R186). -/
def walkFrom (s : State) (root : TreeRoot) (key : List Nat) : Nat → Nat → Nat → WalkEnd
  | 0, _, depth => .error depth
  | fuel + 1, node, depth =>
    if ¬ root.covers node then .error depth
    else
      let e := treeNode s node
      let d := depth + 1
      match e % 4 with
      | 1 =>
        let reg := fieldOf e 5 2
        if d = 24 ∨ root.keyRegs ≤ reg then .error d
        else
          let i := key.getD reg 0 / 2 ^ fieldOf e 10 6 % 2 ^ (fieldOf e 13 11 + 1)
          walkFrom s root key fuel (fieldOf e 51 32 + i) d
      | 2 => walkLeaf s root key e d
      | _ => .error d

/-- The walk of a rule set for a frame's field registers. -/
def treeWalk (s : State) (epoch rs : Nat) (field : Nat → Nat) : WalkEnd :=
  let root := treeRoot s epoch rs
  if ¬ root.valid then .error 0
  else walkFrom s root ((List.range root.keyRegs).map (fun j => field (root.keyBase + j))) 24 root.rootNode 0

/-- The entries of tree memory that a walk from a node reads (R185, R186, R431). -/
def readsFrom (s : State) (root : TreeRoot) (key : List Nat) : Nat → Nat → List Nat
  | 0, _ => []
  | fuel + 1, node =>
    if ¬ root.covers node then []
    else
      let e := treeNode s node
      node :: (match e % 4 with
        | 1 =>
          if fuel = 0 ∨ root.keyRegs ≤ fieldOf e 5 2 then []
          else readsFrom s root key fuel (fieldOf e 51 32
            + key.getD (fieldOf e 5 2) 0 / 2 ^ fieldOf e 10 6 % 2 ^ (fieldOf e 13 11 + 1))
        | 2 =>
          let size := ruleSize root.keyRegs
          let start := fieldOf e 51 32 * 64 + fieldOf e 52 52 * 32
          let last := (start + fieldOf e 6 2 * size - 1) / 64
          if fieldOf e 6 2 = 0 then [] else (List.range (last + 1 - start / 64)).map (fun i => start / 64 + i)
        | _ => [])

/-- Whether an entry that a walk of a rule set reads fails parity (R431). -/
def walkBad (s : State) (epoch rs : Nat) (field : Nat → Nat) : Bool :=
  let root := treeRoot s epoch rs
  s.badEntries.any (fun k => k / 2 ^ 48 == 6) && root.valid
    && (readsFrom s root ((List.range root.keyRegs).map (fun j => field (root.keyBase + j))) 24 root.rootNode).any
      (fun n => badEntry s 6 0 n)

/-- Count a walk's error in its walker, and raise the first of its rule set in the epoch (R188). -/
def noteWalk (pipe rs epoch : Nat) (w : WalkEnd) (s : State) : State :=
  match w with
  | .error d =>
    let p := mget {} s.pipes pipe
    let s1 := { s with pipes := mset {} s.pipes pipe { p with walkErrors := (p.walkErrors + 1) % 2 ^ 32 } }
    let mark := epoch * 256 + rs
    if s1.tree.errorRaised.contains mark then s1
    else raise (.treew pipe) Ev.treeWalkError (pipe + rs * 2 ^ 5 + epoch * 2 ^ 13 + d * 2 ^ 29)
      { s1 with tree := { s1.tree with errorRaised := s1.tree.errorRaised ++ [mark] } }
  | _ => s

/-! ## The fragment table -/

/-- The key's bytes of a fragment: the VRF and the named registers, unnamed bits 0 (R196). -/
def fragKey (v6 : Bool) (vrf a : Nat) (field : Nat → Nat) : List Byte :=
  let w := fun i => field (a + i)
  beBytes 2 (vrf % 2 ^ 14) ++
    (if v6 then
      (List.range 9).flatMap (fun i => beBytes 4 (w i)) ++ beBytes 4 (w 9 % 256)
    else beBytes 4 (w 0) ++ beBytes 4 (w 1) ++ beBytes 4 (w 2 % 65536) ++ beBytes 4 (w 3 % 256))

/-- The bucket of a key (R196). -/
def fragBucket (s : State) (key : List Byte) : Nat := crc32c s.tree.seed key % 4096

/-- frag_age in ps (R202). -/
def fragAge (s : State) : Nat := rwlField s .frag 0 14 0 * psMs

/-- Whether an entry's age has passed before an instant (R201). -/
def fragExpired (s : State) (t : Nat) (e : FragEntry) : Bool := decide (e.since + fragAge s < t)

/-- The live or pending entry of a key at an instant: its place and itself. -/
def fragFind (s : State) (t : Nat) (key : List Byte) : Option (Nat × FragEntry) :=
  s.tree.frags.find? (fun p => decide (p.1 / 16 = fragBucket s key) && p.2.key == key && !fragExpired s t p.2)

/-- The lowest way of a bucket that no live or pending entry holds (notes/assumptions 6). -/
def fragFreeWay (s : State) (t b : Nat) : Option Nat :=
  (List.range 16).find? (fun w => !mhas s.tree.frags (16 * b + w)
    || fragExpired s t (mget {} s.tree.frags (16 * b + w)))

/-- The instant of clock c of step k of a frame that starts parsing now: step 1 starts 15 ns later and a step has 6
core clocks (R154, R155). -/
def stepInstant (s : State) (k c : Nat) : Nat := s.now + 15000 + 3750 * (k - 1) + 625 * c

/-- The state with the fragment table replaced. -/
def setFrags (f : SMap FragEntry) (s : State) : State := { s with tree := { s.tree with frags := f } }

/-- The first-fragment form when it issues, at instant t: its result and the place installed (R197, R199, R201). -/
def fragInstall (epoch t : Nat) (key : List Byte) (s : State) : Nat × Option Nat × State :=
  let e : FragEntry := { key := key, awaiting := true, epoch := epoch, visible := t, since := t }
  match fragFind s t key with
  | some p => (1, some p.1, setFrags (mput s.tree.frags p.1 e) s)
  | none =>
    let b := fragBucket s key
    match fragFreeWay s t b with
    | some w => (0, some (16 * b + w), setFrags (mput s.tree.frags (16 * b + w) e) s)
    | none => (2, none, { s with tree := { s.tree with full := (s.tree.full + 1) % 2 ^ 32 } })

/-- The decision of an installed key is recorded at instant t, but not before its form has issued: from then it is
visible and its age runs (R197). -/
def fragRecord (place result t : Nat) (s : State) : State :=
  let e := mget {} s.tree.frags place
  let r := max e.visible t
  setFrags (mput s.tree.frags place { e with awaiting := false, result := result, visible := r, since := r }) s

/-- The fragment default rule as a later fragment receives it (R199, R200). -/
def fragDefault (s : State) (epoch : Nat) : Nat :=
  let v := tblGet s epoch 0x08 0 0
  fieldOf v 32 32 * 2 ^ 63 + 2 ^ 61 + fieldOf v 31 0

/-- The later-fragment form, which reads at instant t: its result and the state (R198 to R201); an entry whose decision is
recorded later is pending, and one that fails parity is freed (R431). -/
def fragRead (epoch t : Nat) (key : List Byte) (flip : Bool) (s0 : State) : Nat × State :=
  let s := match fragFind s0 t key with
    | some p => if flip then setFrags (mdel s0.tree.frags p.1) s0 else s0
    | none => s0
  match fragFind s t key with
  | none => (fragDefault s epoch, { s with tree := { s.tree with misses := (s.tree.misses + 1) % 2 ^ 32 } })
  | some p =>
    if p.2.awaiting ∨ t < p.2.visible then
      (fragDefault s epoch, { s with tree := { s.tree with misses := (s.tree.misses + 1) % 2 ^ 32 } })
    else if p.2.epoch ≠ epoch then
      (fragDefault s epoch, { s with tree := { s.tree with epochMisses := (s.tree.epochMisses + 1) % 2 ^ 32 } })
    else
      let s1 := setFrags (mput s.tree.frags p.1 { p.2 with since := max p.2.since t }) s
      (p.2.result, { s1 with tree := { s1.tree with hits := (s1.tree.hits + 1) % 2 ^ 32 } })

/-- FRAG_EXPIRY: an entry whose age has passed is freed; in the clock of its expiry a read still finds it (R55, R201). -/
def execFragExpiry (bucket : Fin 4096) (way : Fin 16) (s : State) : Host.Outcome State Fault Refusal :=
  let k := 16 * bucket.val + way.val
  let e := mget {} s.tree.frags k
  .next (if mhas s.tree.frags k ∧ ¬ e.awaiting ∧ fragExpired s s.now e then
      setFrags (mdel s.tree.frags k) s
    else s)

/-! ## The layer-2 table -/

/-- A layer-2 key (R206). -/
def l2Key (fid mac : Nat) : Nat := fid % 2 ^ 14 * 2 ^ 48 + mac % 2 ^ 48

/-- A key's bucket in a bank, under the seed the bank places by (R206, R215). -/
def l2Bucket (s : State) (bank key : Nat) : Nat := crc32c (mget 0 s.l2.seed bank) (beBytes 8 key) % 131072

/-- An entry's contents in the generation of an epoch. -/
def L2Entry.data (e : L2Entry) (epoch : Nat) : Option L2Data := if epoch % 2 = 0 then e.c0 else e.c1

/-- Whether some generation holds an entry as static. -/
def L2Entry.isStatic (e : L2Entry) : Bool :=
  (e.c0.map (fun d => d.fixed)).getD false || (e.c1.map (fun d => d.fixed)).getD false

/-- The entry that holds a key, in any generation: its place and itself. -/
def l2Find (s : State) (key : Nat) : Option (Nat × L2Entry) := s.l2.entries.find? (fun p => p.2.key == key)

/-- The 8 places of a bucket. -/
def l2Ways (bank bucket : Nat) : List Nat := (List.range 8).map (fun w => bank * 1048576 + bucket * 8 + w)

/-- The 16 candidate places of a key, bank 0 first (R206). -/
def l2Candidates (s : State) (key : Nat) : List Nat :=
  l2Ways 0 (l2Bucket s 0 key) ++ l2Ways 1 (l2Bucket s 1 key)

/-- The free places of a list. -/
def l2FreeOf (s : State) (ps : List Nat) : List Nat := ps.filter (fun p => !mhas s.l2.entries p)

/-- The dynamic entry with the largest idle, the first on a tie. -/
def l2Oldest (s : State) : List Nat → Option Nat
  | [] => none
  | p :: ps =>
    let rest := l2Oldest s ps
    let e := mget {} s.l2.entries p
    if e.isStatic then rest
    else match rest with
      | none => some p
      | some q => if e.idle < (mget {} s.l2.entries q).idle then some q else some p

/-- Where a new entry goes: a free way of the emptier bucket, else over the oldest dynamic entry; the flag says
that an entry is evicted (R209). -/
def l2Place (s : State) (key : Nat) : Option (Nat × Bool) :=
  let f0 := l2FreeOf s (l2Ways 0 (l2Bucket s 0 key))
  let f1 := l2FreeOf s (l2Ways 1 (l2Bucket s 1 key))
  let free := if f0.length < f1.length then f1 else f0
  match free with
  | p :: _ => some (p, false)
  | [] => (l2Oldest s (l2Candidates s key)).map (fun p => (p, true))

/-- The state with the layer-2 entries replaced. -/
def setL2 (m : SMap L2Entry) (s : State) : State := { s with l2 := { s.l2 with entries := m } }

/-- Put a new entry at its place, counting an eviction. -/
def l2Insert (e : L2Entry) (s : State) : State :=
  match l2Place s e.key with
  | none => s
  | some (p, evicts) =>
    let s1 := endLoss (tblKey 1 0 p) (setL2 (mput s.l2.entries p e) s)
    if evicts then { s1 with l2 := { s1.l2 with evictions := (s1.l2.evictions + 1) % 2 ^ 32 } } else s1

/-- Whether learning is on for a port (R209, R223). -/
def learnOn (s : State) (port : Nat) : Bool :=
  rwlField s (.l2b 0) 3 0 0 == 1 && rwlField s (.l2b 0) (4 + port / 32) (port % 32) (port % 32) == 1

/-- Post a learn or a move (R210, R211). -/
def postLearn (pipe key unit port : Nat) (s : State) : State :=
  perfEvent { code := 0x017, master := pipe } { s with l2 := { s.l2 with learns := s.l2.learns ++ [(key, unit, port)] } }

/-- Raise REHASH_NEEDED, at most once per ms (R210). -/
def rehashNeeded (key : Nat) (s : State) : State :=
  let due := match s.l2.neededAt with
    | none => true
    | some t => decide (t + psMs ≤ s.now)
  if due then
    raise (.l2b 0) Ev.rehashNeeded (l2Bucket s 0 key + l2Bucket s 1 key * 2 ^ 17)
      { s with l2 := { s.l2 with neededAt := some s.now } }
  else s

/-- The learn of a source: the outcome code of R210 and the state. `on` says that learning is on. A key that only the
bank of the previous epoch still holds is absent; one that only the open shadow holds as static is not (R205, R211). -/
def learnSource (pipe epoch key unit port : Nat) (on : Bool) (s : State) : Nat × State :=
  let found := l2Find s key
  let data := found.bind (fun p => p.2.data epoch)
  match data with
  | some d =>
    if d.unit = unit ∧ d.port = port then
      match found with
      | some p => if p.2.isStatic then (0, s) else (0, setL2 (mput s.l2.entries p.1 { p.2 with hit := true }) s)
      | none => (0, s)
    else if ¬ on then (6, s)
    else if (found.map (fun p => p.2.isStatic)).getD false then
      (3, { s with l2 := { s.l2 with conflicts := (s.l2.conflicts + 1) % 2 ^ 32 } })
    else if 4096 ≤ s.l2.learns.length then
      (5, { s with l2 := { s.l2 with drops := (s.l2.drops + 1) % 2 ^ 32 } })
    else (2, { postLearn pipe key unit port s with l2 := { (postLearn pipe key unit port s).l2 with
      moves := (s.l2.moves + 1) % 2 ^ 32 } })
  | none =>
    if ¬ on then (6, s)
    else if s.epoch.shadowOpen ∧ (found.map (fun p => p.2.isStatic)).getD false then
      (4, { s with l2 := { s.l2 with conflicts := (s.l2.conflicts + 1) % 2 ^ 32 } })
    else if found.isNone ∧ (l2Place s key).isNone then
      (4, rehashNeeded key { s with l2 := { s.l2 with blocked := (s.l2.blocked + 1) % 2 ^ 32 } })
    else if 4096 ≤ s.l2.learns.length then
      (5, { s with l2 := { s.l2 with drops := (s.l2.drops + 1) % 2 ^ 32 } })
    else (1, { postLearn pipe key unit port s with l2 := { (postLearn pipe key unit port s).l2 with
      learned := (s.l2.learned + 1) % 2 ^ 32 } })

/-- LOOKUP.L2's destination for the entry found, without its learn field (R208). -/
def l2Value (d : Option L2Data) (source : Bool) : Nat :=
  match d with
  | none => 0
  | some d =>
    2 ^ 63 + b2n d.fixed * 2 ^ 62 + b2n (if source then d.discardSrc else d.discardDst) * 2 ^ 61
      + d.unit * 2 ^ 9 + d.port

/-- LOOKUP.L2 (R149, R208 to R212): `port` is the ingress port. -/
def lookupL2 (epoch fid mac port : Nat) (source : Bool) (s : State) : Nat × State :=
  let key := l2Key fid mac
  let found := l2Find s key
  let bad := match found with
    | some p => (p.2.data epoch).isSome && badEntry s 1 0 p.1
    | none => false
  let v := l2Value (found.bind (fun p => p.2.data epoch)) source + b2n bad * 2 ^ 60
  if ¬ source then (v, s)
  else
    let r := learnSource (port / 16) epoch key s.roll.unit port (learnOn s port) s
    (v + r.1 * 2 ^ 56, r.2)

/-- The remote learn of a frame at egress (R221). -/
def remoteLearn (pipe : Nat) (r : Rind) (bytes : List Byte) (s : State) : State :=
  if r.sourceUnit ≠ s.roll.unit ∧ bitOf r.metadata 15 ∧ rwlField s (.l2b 0) 3 1 1 = 1 then
    (learnSource pipe (readEpoch s r.epoch) (l2Key (r.metadata % 2 ^ 14) (beAt bytes 6 6)) r.sourceUnit r.ingressPort true s).2
  else s

/-! ## Routes -/

/-- RMAP_CONFIG's hash bits of a family (R243). -/
def vrfBits (s : State) (v6 : Bool) : Nat :=
  if v6 then rwField s (.rmap false) 0 7 4 else rwField s (.rmap false) 0 3 0

/-- h bits of VRF hash (R227). -/
def vrfHash (s : State) (h vrf : Nat) : Nat :=
  crc32c (rwField s (.rmap false) 1 31 0) (beBytes 2 vrf) / 2 ^ (32 - h)

/-- Bits of an address. -/
def addrBits (v6 : Bool) : Nat := if v6 then 128 else 32

/-- The map index of a search (R227). -/
def mapIndex (s : State) (v6 : Bool) (vrf addr : Nat) : Nat :=
  let h := vrfBits s v6
  b2n v6 * 2 ^ 11 + vrfHash s h vrf * 2 ^ (11 - h) + addr / 2 ^ (addrBits v6 - (11 - h))

/-- The slices a map entry names (R228). -/
def entrySlices (img : Nat) : List Nat :=
  if bitOf img 14 then [fieldOf img 5 0, fieldOf img 13 8] else [fieldOf img 5 0]

/-- The slice a search goes to (R229). -/
def searchSlice (img a : Nat) : Nat :=
  if bitOf img 14 ∧ a % 2 = 1 then fieldOf img 13 8 else fieldOf img 5 0

/-- The result of a route in the generation of an epoch. -/
def Route.result (r : Route) (epoch : Nat) : Option Nat := if epoch % 2 = 0 then r.r0 else r.r1

/-- The high bits of an n-bit field that a prefix of a length takes. -/
def prefixMask (n len : Nat) : Nat := 2 ^ n - 2 ^ (n - min n len)

/-- Whether a route takes a pair of rows (R226). -/
def Route.isPair (r : Route) : Bool := r.v6 && decide (64 < r.length)

/-- The 80-bit value and mask of the rows of a route: one row, or the even and the odd row of a pair (R225, R226). A mask
bit of 1 is a cell that is compared; family, half and VRF always are. -/
def Route.cells (r : Route) : List (Nat × Nat) :=
  let head := b2n r.v6 * 2 ^ 79 + r.vrf * 2 ^ 64
  let full := prefixMask 80 16
  if r.isPair then
    [(head + r.addr / 2 ^ 64, full + prefixMask 64 64),
     (head + 2 ^ 78 + r.addr % 2 ^ 64, full + prefixMask 64 (r.length - 64))]
  else if r.v6 then [(head + r.addr / 2 ^ 64, full + prefixMask 64 r.length)]
  else [(head + r.addr * 2 ^ 32, full + prefixMask 32 r.length * 2 ^ 32)]

/-- The two key presentations of a search: the first half, and the second half of an IPv6 address (R225, R226). -/
def searchKeys (v6 : Bool) (vrf addr : Nat) : List Nat :=
  let head := b2n v6 * 2 ^ 79 + vrf * 2 ^ 64
  if v6 then [head + addr / 2 ^ 64, head + 2 ^ 78 + addr % 2 ^ 64] else [head + addr * 2 ^ 32]

/-- Whether every row of a route matches (R226). -/
def Route.covers (r : Route) (v6 : Bool) (vrf addr : Nat) : Bool :=
  (r.cells.zip (searchKeys v6 vrf addr)).all (fun p => ((p.1.1 ^^^ p.2) &&& p.1.2) == 0)
    && decide (r.cells.length ≤ (searchKeys v6 vrf addr).length)

/-- The lowest-numbered row that matches and is present in the frame's bank (R230). -/
def firstMatch (epoch : Nat) (v6 : Bool) (vrf addr : Nat) (rs : List Route) : Option Route :=
  rs.find? (fun r => (r.result epoch).isSome && r.covers v6 vrf addr)

/-- The routes of a slice in row order. -/
def sliceRoutes (s : State) (n : Nat) : List Route := mget [] s.routes.slices n

/-- Rows of a route (R226). -/
def rowsOf (v6 : Bool) (len : Nat) : Nat := if v6 && decide (64 < len) then 2 else 1

/-- The group of a tag, 0 to 3 (R235). -/
def groupOf (tag : Nat) : Nat := if 96 < tag then 0 else if 64 < tag then 1 else if 32 < tag then 2 else 3

/-- The rows of a slice's group with its pool (R235; notes/assumptions 141). -/
def groupCap (s : State) (n g : Nat) : Nat := mget 10240 s.routes.caps (4 * n + g)

/-- The first row of a slice's group. -/
def groupBase (s : State) (n g : Nat) : Nat := ((List.range g).map (groupCap s n)).foldl (· + ·) 0

/-- The rows of a list of routes. -/
def rowsIn (rs : List Route) : Nat := (rs.map (fun r => rowsOf r.v6 r.length)).foldl (· + ·) 0

/-- The row numbers of a slice's routes, in row order: of a pair, its even row. -/
def rowNumbers (s : State) (n : Nat) : List (Nat × Route) :=
  (List.range 4).flatMap (fun g =>
    let rs := (sliceRoutes s n).filter (fun r => groupOf r.length == g)
    (rs.zipIdx).map (fun p => (groupBase s n g + rowsIn (rs.take p.2), p.1)))

/-- Whether a row of a route of a slice, or its result, fails parity (R250). -/
def routeBad (s : State) (n : Nat) (r : Route) : Bool :=
  s.badEntries.any (fun k => k / 2 ^ 48 == 2) && (rowNumbers s n).any (fun p => p.2 == r
    && (List.range (rowsOf r.v6 r.length)).any (fun i => badEntry s 2 0 (40960 * n + p.1 + i)))

/-- LOOKUP.RT's destination (R233). -/
def routeValue (epoch slice : Nat) (r : Option Route) : Nat :=
  match r with
  | none => slice * 2 ^ 42
  | some r =>
    let v := (r.result epoch).getD 0
    2 ^ 63 + fieldOf v 21 21 * 2 ^ 60 + fieldOf v 22 22 * 2 ^ 59 + r.length * 2 ^ 48 + slice * 2 ^ 42
      + fieldOf v 42 32 * 2 ^ 21 + fieldOf v 20 0

/-- The instant at which a slice can start a search that reaches it now, and whether that lies within what the pipe's side
allows: 28 core clocks on the slice's own side, 4 from the other (R231). -/
def searchStart (s : State) (pipe slice : Nat) : Nat × Bool :=
  let t := max s.now (mget 0 s.routes.freeAt slice)
  (t, decide (t ≤ s.now + (if pipe / 16 = slice / 32 then 17500 else 2500)))

/-- LOOKUP.RT of a pipe: a is operand a, addr the address (R149, R229 to R233); a slice starts a search every 0.8 core
clocks, and one that cannot start in time is not served (R243, R510). -/
def lookupRt (pipe epoch a : Nat) (v6 : Bool) (addr : Nat) (s : State) : Nat × State :=
  let vrf := fieldOf a 61 48
  let slice := searchSlice (tblGet s epoch 0x03 0 (mapIndex s v6 vrf addr)) a
  let start := searchStart s pipe slice
  if start.2 then
    let r := firstMatch epoch v6 vrf addr (sliceRoutes s slice)
    let bad := match r with
      | some x => routeBad s slice x
      | none => false
    (routeValue epoch slice r + b2n bad * 2 ^ 62,
     { s with routes := { s.routes with
        freeAt := mset 0 s.routes.freeAt slice (start.1 + 500)
        searches := mset 0 s.routes.searches slice ((mget 0 s.routes.searches slice + 1) % 2 ^ 32) } })
  else
    (2 ^ 61, perfEvent { code := 0x018, master := pipe } { s with routes := { s.routes with
        overruns := mset 0 s.routes.overruns slice ((mget 0 s.routes.overruns slice + 1) % 2 ^ 32) } })

/-! ## Next hops -/

/-- A next hop's part of LOOKUP.NH's destination (R247). -/
def nextHopValue (img : Nat) : Nat :=
  fieldOf img 20 20 * 2 ^ 63 + fieldOf img 21 21 * 2 ^ 61 + fieldOf img 22 22 * 2 ^ 60
    + fieldOf img 55 32 * 2 ^ 20 + fieldOf img 19 0

/-- A next hop's image in the generation of an epoch. -/
def nextHop (s : State) (epoch i : Nat) : Nat := tblGet s epoch 0x04 0 i

/-- An ECMP group's image in the generation of an epoch. -/
def ecmpGroup (s : State) (epoch g : Nat) : Nat := tblGet s epoch 0x05 0 g

/-- Members of a group image (R245). -/
def groupCount (img : Nat) : Nat := fieldOf img 9 0

/-- The next-hop index of member j. -/
def groupMember (img j : Nat) : Nat := fieldOf img (147 + 32 * j) (128 + 32 * j)

/-- The parity bit of LOOKUP.NH's destination: a next hop, or a group's header or member, fails parity (R247, R250). -/
def hopParity (s : State) (type idx : Nat) : Nat := b2n (badEntry s type 0 idx) * 2 ^ 62

/-- LOOKUP.NH: the reference and the hash (R149, R246, R247). -/
def lookupNh (s : State) (epoch ref hash : Nat) : Nat :=
  if bitOf ref 20 then
    let g := ecmpGroup s epoch (ref % 2 ^ 16)
    let n := groupCount g
    if n = 0 then hopParity s 5 (ref % 2 ^ 16)
    else
      let j := hash % 2 ^ 32 * n / 2 ^ 32
      nextHopValue (nextHop s epoch (groupMember g j)) + j * 2 ^ 44
        + (hopParity s 5 (ref % 2 ^ 16) ||| hopParity s 4 (groupMember g j))
  else nextHopValue (nextHop s epoch (ref % 2 ^ 20)) + hopParity s 4 (ref % 2 ^ 20)

/-! ## Flow counters -/

/-- COUNT: one packet and its bytes (R518); none is counted while PD13 is off (R531). -/
def countFlow (i len : Nat) (s : State) : State :=
  let c := mget (0, 0) s.flows i
  if ¬ domainOn s 13 then s else { s with flows := mset (0, 0) s.flows i ((c.1 + 1) % 2 ^ 64, (c.2 + len) % 2 ^ 64) }

end Sys2Proof.Machine
end

