-- ==== Sys2Proof/Machine/Program.lean ====
section
/-!
DEFINITION. What a pipe does with a frame: profile selection and extracts (R160 to R165), the steps of a Krenus-P
program and their operations (R89 to R99, R143 to R149), and the edits (R150 to R152, R422, R423).
-/
namespace Sys2Proof.Machine

/-! ## Windows, profiles and extracts -/

/-- A profile's image in the generation of an epoch. -/
def profileImage (s : State) (epoch pipe n : Nat) : Nat := tblGet s epoch 0x0A pipe n

/-- Byte offset of window w (R158). -/
def windowOfs (s : State) (epoch pipe w : Nat) : Nat :=
  rwlFieldAt s epoch (.pipe pipe) (1 + w / 4) (8 * (w % 4) + 5) (8 * (w % 4))

/-- The sixteen windows of a frame (R161). -/
def windows (s : State) (epoch pipe : Nat) (bs : List Byte) : List Nat :=
  (List.range 16).map (fun w => beAt bs (windowOfs s epoch pipe w) 4)

/-- Whether a profile matches (R162). -/
def profileMatches (img cls : Nat) (ws : List Nat) : Bool :=
  bitOf img 0 && ((cls ^^^ fieldOf img 7 4) &&& fieldOf img 11 8) == 0
    && (ws.zipIdx).all (fun p =>
      let lo := (32 + 8 * p.2) * 8
      ((p.1 ^^^ fieldOf img (lo + 31) lo) &&& fieldOf img (lo + 63) (lo + 32)) == 0)

/-- The profile selected: the lowest of 1 to 511 that matches, else 0 (R162, R163). -/
def selectProfile (s : State) (epoch pipe cls : Nat) (bs : List Byte) : Nat :=
  let ws := windows s epoch pipe bs
  match ((List.range 512).drop 1).find? (fun n => profileMatches (profileImage s epoch pipe n) cls ws) with
  | some n => n
  | none => 0

/-- What extract i of a profile gives for a frame: the value, or none where it is not used or not wholly inside
the frame (R164, R165). -/
def extractValue (img i : Nat) (bs : List Byte) : Option Nat :=
  if ¬ bitOf img (64 + i) then none
  else
    let e := fieldOf img (8 * (160 + 2 * i) + 15) (8 * (160 + 2 * i))
    let off := e / 32
    let w := e % 32 + 1
    if (off + w + 7) / 8 ≤ bs.length then
      some (beAt bs (off / 8) 5 / 2 ^ (40 - off % 8 - w) % 2 ^ w)
    else none

/-! ## Registers (R93, R144, R145) -/

/-- A frame's registers by code; an unlisted register is 0. -/
abbrev PRegs := SMap Nat

/-- A register as an operand reads it; p0 reads 1 (R92, R145). -/
def pread (r : PRegs) (code : Nat) : Nat := if code = 0x60 then 1 else mget 0 r code

/-- Write a result: f keeps 32 bits, p keeps whether it is not 0, a write of p0 is discarded (R92, R145). -/
def pwrite (r : PRegs) (code v : Nat) : PRegs :=
  if code < 0x40 then mset 0 r code (v % 2 ^ 32)
  else if code < 0x60 then mset 0 r code (v % 2 ^ 64)
  else if code = 0x60 ∨ 0x68 ≤ code then r
  else mset 0 r code (b2n (v % 2 ^ 64 != 0))

/-- The extracts of a profile in the field registers, and the field-valid mask. -/
def extractRegs (img : Nat) (bs : List Byte) : PRegs × Nat :=
  (List.range 48).foldl (fun acc i => match extractValue img i bs with
    | some v => (pwrite acc.1 i v, acc.2 + 2 ^ i)
    | none => acc) ([], 0)

/-! ## One program run -/

/-- What a program's operations take from outside the registers. -/
structure PEnv where
  ingress : Bool
  pipe : Nat
  epoch : Nat
  /-- Ingress port of the frame. -/
  port : Nat
  /-- The counted length of POLICE (R297) and the length of COUNT (R518). -/
  policeLen : Nat
  countLen : Nat
  /-- The entry of the frame's fragment fails parity (R431). -/
  fragFlip : Bool := false
  /-- The pipe's hash seed and the ingress port's default VRF (R148). -/
  seed : Nat
  vrf : Nat
deriving DecidableEq, Repr

/-- What an executed edit records: opcode, the value of operand a, imm (R155). -/
structure EditRec where
  opcode : Nat
  a : Nat
  imm : Nat
deriving DecidableEq, Repr, Inhabited

/-- A frame in a program: registers, results in flight (step, code, value), edits so far, the tree result and the step
in which it lands (0: no walk), the fragment entry installed, and whether a table entry that it read fails parity. -/
structure PRun where
  regs : PRegs := []
  landing : List (Nat × Nat × Nat) := []
  edits : List EditRec := []
  walk : Nat := 0
  walkStep : Nat := 0
  frag : Option Nat := none
  parity : Bool := false
deriving DecidableEq, Repr

/-- Operand b (R143). -/
def operandB (r : PRegs) (o : POp) : Nat := if o.srcb = 0x7F then o.imm else pread r o.srcb

/-- The value of an ALU, compare or hash operation; none where the operation writes nothing (R147, R148). -/
def aluValue (env : PEnv) (r : PRegs) (o : POp) : Option Nat :=
  let a := pread r o.srca
  let b := operandB r o
  let w := fieldOf o.imm 11 6 + 1
  let pos := fieldOf o.imm 5 0
  match o.opcode with
  | 0x01 => some b
  | 0x02 => some ((a + b) % 2 ^ 64)
  | 0x03 => some ((a + 2 ^ 64 - b) % 2 ^ 64)
  | 0x04 => some (a &&& b)
  | 0x05 => some (a ||| b)
  | 0x06 => some (a ^^^ b)
  | 0x07 => some (a &&& (b ^^^ (2 ^ 64 - 1)))
  | 0x08 => some (a * 2 ^ (b % 64) % 2 ^ 64)
  | 0x09 => some (a / 2 ^ (b % 64))
  | 0x0A => some (min a b)
  | 0x0B => some (max a b)
  | 0x0C => some (a / 2 ^ pos % 2 ^ w)
  | 0x0D => some (setField (pread r o.dst) (pos + w - 1) pos a)
  | 0x10 => some (b2n (a == b))
  | 0x11 => some (b2n (a != b))
  | 0x12 => some (b2n (decide (a < b)))
  | 0x13 => some (b2n (decide (b ≤ a)))
  | 0x14 => some (b2n (decide (a ≤ b)))
  | 0x15 => some (b2n (decide (b < a)))
  | 0x16 => some (b2n ((a &&& b) != 0))
  | 0x18 =>
    let n := fieldOf o.imm 4 0
    if n = 0 then none
    else some (crc32c env.seed ((List.range n).flatMap (fun i => beBytes 4 (pread r (o.srca + i))))
      + env.vrf * 2 ^ 48)
  | 0x19 => some (crc32c (b % 2 ^ 32) (beBytes 8 a))
  | _ => none

/-- The index of POLICE or COUNT: from a when imm[31] is 1 (R149). -/
def tableIndex (r : PRegs) (o : POp) (bits : Nat) : Nat :=
  (if bitOf o.imm 31 then pread r o.srca else o.imm) % 2 ^ bits

/-- Issue a lookup: the step of its result, the run and the state (R97, R149). -/
def issueLookup (env : PEnv) (step : Nat) (r : PRegs) (o : POp) (run : PRun) (s : State) : PRun × State :=
  let a := pread r o.srca
  let b := operandB r o
  let land := fun (lat v : Nat) (bad : Bool) (run : PRun) => { run with
    landing := run.landing ++ [(step + lat, o.dst, v)]
    parity := run.parity || bad }
  match o.opcode with
  | 0x20 =>
    let x := lookupL2 env.epoch (fieldOf b 29 16) (a % 2 ^ 32 * 2 ^ 16 + b % 2 ^ 16) env.port (bitOf o.imm 0) s
    (land 5 x.1 (bitOf x.1 60) run, x.2)
  | 0x21 =>
    let addr := if bitOf o.imm 0 then
        ((List.range 4).map (fun i => pread r (o.srcb + i))).foldl (fun n w => n * 2 ^ 32 + w) 0
      else pread r o.srcb
    let x := lookupRt env.pipe env.epoch a (bitOf o.imm 0) addr (perfEvent { code := 0x015, master := env.pipe } s)
    (land 5 x.1 (bitOf x.1 62) run, x.2)
  | 0x22 =>
    let v := lookupNh s env.epoch (a % 2 ^ 21) b
    (land 3 v (bitOf v 62) run, s)
  | 0x23 =>
    let rs := o.imm % 256
    let w := treeWalk s env.epoch rs (fun i => pread r i)
    (land 8 w.value (walkBad s env.epoch rs (fun i => pread r i)) { run with walk := w.value, walkStep := step + 8 }, noteWalk env.pipe rs env.epoch w (perfEvent { code := 0x016, master := env.pipe } s))
  | 0x24 =>
    let key := fragKey (bitOf o.imm 0) (fieldOf b 61 48) o.srca (fun i => pread r i)
    if bitOf o.imm 1 then
      let x := fragInstall env.epoch (stepInstant s step 1) key s
      (land 4 x.1 false { run with frag := x.2.1 }, x.2.2)
    else
      let x := fragRead env.epoch (stepInstant s (step + 3) 5) key env.fragFlip s
      (land 4 x.1 false run, x.2)
  | 0x25 =>
    let x := policeOp env.pipe env.epoch (tableIndex r o 18) (if bitOf o.imm 30 then b % 4 else 0) env.policeLen s
    (land 2 x.1 false run, x.2)
  | 0x26 => (run, countFlow (tableIndex r o 21) env.countLen s)
  | _ => (run, s)

/-- Whether an operation executes (R92). -/
def opRuns (r : PRegs) (o : POp) : Bool := (pread r (0x60 + o.pred) == 1) != o.inv

/-- One operation of a step, reading the registers as they stood at the step's start (R91). -/
def runOp (env : PEnv) (step : Nat) (r0 : PRegs) (o : POp) (x : PRun × State) : PRun × State :=
  if ¬ opRuns r0 o then x
  else if o.opcode < 0x20 then
    match aluValue env r0 o with
    | some v => ({ x.1 with regs := pwrite x.1.regs o.dst v }, x.2)
    | none => x
  else if o.opcode < 0x28 then issueLookup env step r0 o x.1 x.2
  else ({ x.1 with edits := x.1.edits ++ [{ opcode := o.opcode, a := pread r0 o.srca, imm := o.imm }] }, x.2)

/-- Results that land in a step are written first (R97, R155). -/
def landResults (step : Nat) (run : PRun) : PRun :=
  { run with regs := (run.landing.filter (fun l => l.1 == step)).foldl (fun r l => pwrite r l.2.1 l.2.2) run.regs }

/-- One step (R155). -/
def runStep (env : PEnv) (img : Nat) (x : PRun × State) (k : Nat) : PRun × State :=
  let run := landResults k x.1
  (bundleOps img (k - 1)).foldl (fun y o => runOp env k run.regs o y) (run, x.2)

/-- All steps of a program: 12 on ingress, 8 on egress (R89). -/
def runProgram (env : PEnv) (img : Nat) (regs : PRegs) (s : State) : PRun × State :=
  ((List.range (if env.ingress then 13 else 9)).drop 1).foldl (runStep env img) ({ regs := regs }, s)

/-! ## Edits (R150 to R152) -/

/-- A frame under edit: its bytes without the frame check sequence, and the fields EDIT.ONESTEP named with their
offsets so far: time field offset, checksum offset where imm[15:8] named one, form (R150, R423). -/
structure EditRun where
  bytes : List Byte
  oneStep : Option (Nat × Option Nat × Nat) := none
deriving DecidableEq, Repr

/-- Bytes of a one-step time field (R422). -/
def stepWidth (form : Nat) : Nat := if form = 0 then 10 else 8

/-- The ranges a one-step edit named: time field and checksum. -/
def stepRanges (o : Nat × Option Nat × Nat) : List (Nat × Nat) :=
  (o.1, stepWidth o.2.2) :: (match o.2.1 with
    | none => []
    | some c => [(c, 2)])

/-- Whether two byte ranges share a byte. -/
def overlaps (a b : Nat × Nat) : Bool := decide (a.1 < b.1 + b.2) && decide (b.1 < a.1 + a.2)

/-- Whether a later edit spoils a one-step field: it writes or deletes a byte of it (R423). -/
def spoils (o : Option (Nat × Option Nat × Nat)) (range : Nat × Nat) : Bool :=
  match o with
  | none => false
  | some p => (stepRanges p).any (fun x => overlaps x range)

/-- Follow one offset through an insert of w bytes at `off`; none where it splits the field (R423). -/
def followInsert (off w pos len : Nat) : Option Nat :=
  if off ≤ pos then some (pos + w) else if off < pos + len then none else some pos

/-- Follow the fields of a one-step edit through an insert. -/
def stepInsert (off w : Nat) (o : Nat × Option Nat × Nat) : Option (Nat × Option Nat × Nat) :=
  match followInsert off w o.1 (stepWidth o.2.2) with
  | none => none
  | some p => match o.2.1 with
    | none => some (p, none, o.2.2)
    | some c0 => match followInsert off w c0 2 with
      | none => none
      | some c => some (p, some c, o.2.2)

/-- Follow the fields of a one-step edit through a delete that touches neither. -/
def stepDelete (off n : Nat) (o : Nat × Option Nat × Nat) : Nat × Option Nat × Nat :=
  let f := fun (p : Nat) => if off < p then p - n else p
  (f o.1, o.2.1.map f, o.2.2)

/-- The ones-complement sum of 16-bit words. -/
def onesSum : List Byte → Nat
  | [] => 0
  | [a] => a.toNat * 256
  | a :: b :: bs => onesSum bs + a.toNat * 256 + b.toNat

/-- Fold carries of a ones-complement sum. -/
def onesFold (v : Nat) : Nat :=
  let w := v % 65536 + v / 65536
  w % 65536 + w / 65536

/-- One edit; none where R152 or R423 drops the frame under EDIT_RANGE. -/
def applyEdit (x : EditRun) (e : EditRec) : Option EditRun :=
  let n := x.bytes.length
  let off := fieldOf e.imm 7 0
  let w := fieldOf e.imm 10 8 + 1
  match e.opcode with
  | 0x28 =>
    if n < off + w ∨ 256 < off + w ∨ spoils x.oneStep (off, w) then none
    else some { x with bytes := overlay x.bytes off (beBytes w e.a) }
  | 0x29 =>
    if n < off then none
    else
      let bs := x.bytes.take off ++ beBytes w e.a ++ x.bytes.drop off
      match x.oneStep with
      | none => some { x with bytes := bs }
      | some o => match stepInsert off w o with
        | none => none
        | some o1 => some { bytes := bs, oneStep := some o1 }
  | 0x2A =>
    let c := fieldOf e.imm 15 8
    if c = 0 then some x
    else if n < off + c ∨ 256 < off + c ∨ spoils x.oneStep (off, c) then none
    else some { bytes := x.bytes.take off ++ x.bytes.drop (off + c), oneStep := x.oneStep.map (stepDelete off c) }
  | 0x2B =>
    let h := (byteAt x.bytes off).toNat % 16 * 4
    if n < off + 1 ∨ h < 20 ∨ n < off + h ∨ 256 < off + h ∨ spoils x.oneStep (off + 10, 2) then none
    else
      let hdr := overlay (bytesAt x.bytes off h) 10 [0, 0]
      let c := 65535 - onesFold (onesSum hdr)
      some { x with bytes := overlay x.bytes (off + 10) (beBytes 2 c) }
  | 0x2C =>
    let sum := if fieldOf e.imm 15 8 = 0 then none else some (fieldOf e.imm 15 8)
    some { x with oneStep := some (off, sum, fieldOf e.imm 17 16) }
  | _ => some x

/-- Edits in step and slot order. -/
def applyEdits : List EditRec → EditRun → Option EditRun
  | [], x => some x
  | e :: es, x => match applyEdit x e with
    | none => none
    | some y => applyEdits es y

/-- Pad to 60 bytes without the frame check sequence (R152). -/
def padFrame (bs : List Byte) : List Byte := bs ++ List.replicate (60 - bs.length) 0

/-- Whether the one-step fields lie in the frame as it leaves, apart from each other (R423). -/
def stepFits (bs : List Byte) (o : Option (Nat × Option Nat × Nat)) : Bool :=
  match o with
  | none => true
  | some p => (stepRanges p).all (fun x => decide (x.1 + x.2 ≤ bs.length) && decide (x.1 + x.2 ≤ 256))
    && (match p.2.1 with
      | none => true
      | some c => !overlaps (p.1, stepWidth p.2.2) (c, 2))

/-- A frame after all its edits: the bytes that leave without FCS, or the Whey reason it drops under. -/
def editFrame (body : List Byte) (edits : List EditRec) (maxFrame : Nat) : Except Nat EditRun :=
  match applyEdits edits { bytes := body } with
  | none => .error Wh.editRange
  | some x =>
    if maxFrame < x.bytes.length + 4 then .error Wh.oversize
    else
      let bs := padFrame x.bytes
      if stepFits bs x.oneStep then .ok { x with bytes := bs } else .error Wh.editRange

/-! ## The frame check sequence -/

/-- One bit of the IEEE 802.3 CRC-32, reflected. -/
def fcsBit (r : Nat) : Nat := if r % 2 = 1 then (r / 2) ^^^ 0xEDB88320 else r / 2

/-- One byte enters. -/
def fcsByte (r : Nat) (b : Byte) : Nat :=
  fcsBit (fcsBit (fcsBit (fcsBit (fcsBit (fcsBit (fcsBit (fcsBit (r ^^^ b.toNat))))))))

/-- The frame check sequence of a frame, as its four bytes in the order sent (notes/assumptions 7). -/
def fcsOf (bs : List Byte) : List Byte := leBytes 4 ((bs.foldl fcsByte 0xFFFFFFFF) ^^^ 0xFFFFFFFF)

end Sys2Proof.Machine
end

