-- ==== Sys2Proof/Machine/Mac.lean ====
section
/-!
DEFINITION. The MACs (R394 to R403): receive checks, flow control received and sent, transmission with one-step
insertion and transmit records (R416, R419 to R423), low-power idle.
-/
namespace Sys2Proof.Machine

/-- A port's MAC. -/
def macOf (s : State) (port : Nat) : MacSt := mget {} s.macs port

/-- The state with a MAC replaced. -/
def setMac (port : Nat) (m : MacSt) (s : State) : State := { s with macs := mset {} s.macs port m }

/-! ## Port statistics (R403, R520) -/

/-- Add to a port's counter. -/
def countPort (port i n : Nat) (s : State) : State :=
  if ¬ domainOn s 13 then s else
  { s with portStats := mset 0 s.portStats (64 * port + i) ((mget 0 s.portStats (64 * port + i) + n) % 2 ^ 64) }

/-- What a good frame counts from counter `base`: frames, octets, and a group or all-ones destination (R403). -/
def goodCounts (base : Nat) (bs : List Byte) : List (Nat × Nat) :=
  [(base, 1), (base + 1, bs.length)] ++
    (if beAt bs 0 6 = 2 ^ 48 - 1 then [(base + 3, 1)]
     else if (byteAt bs 0).toNat % 2 = 1 then [(base + 2, 1)] else [])

/-- Add to several counters of a port. -/
def countPorts (port : Nat) : List (Nat × Nat) → State → State
  | [], s => s
  | c :: cs, s => countPorts port cs (countPort port c.1 c.2 s)

/-- Count a good frame. -/
def countGood (port base : Nat) (bs : List Byte) (s : State) : State := countPorts port (goodCounts base bs) s

/-- A frame goes on the wire: what it counts, and its record, stay known until the next (R393). -/
def onWire (port : Nat) (counts : List (Nat × Nat)) (record : Option Nat) (s : State) : State :=
  countPorts port counts (setMac port { macOf s port with wireCounts := counts, wireRecord := record } s)

/-! ## Timestamps (R416, R417) -/

/-- 2 UI in units of 2⁻¹⁶ ns, rounded down, by lane rate code (R38, R417). -/
def twoUi : Nat → Nat
  | 0 => 4934 | 1 => 2467 | 2 => 1233 | _ => 616

/-- A time taken at a port's lanes: the tile copy's count with an error of at most ±2 UI (a free value) and the plane
adjustment in 2⁻⁸ ns. -/
def lineTime (s : State) (port : Nat) (adj : Int) : Nat × State :=
  let u := twoUi (modeRate (laneMode s port))
  let r := freeBelow (2 * u + 1) s
  (((tileTime s port : Int) + r.1 - u + adj * 256).toNat, r.2)

/-- TSQ_PORT_ADJ of a port: rx_adj and tx_adj (R428). -/
def portAdj (s : State) (port hi lo : Nat) : Int :=
  signed 16 (rwField s .tsq (64 * (port / 16) + 16 + port % 16) hi lo)

/-! ## Backlog and generated flow control (R178, R400) -/

/-- Bytes in a pipe's ingress FIFO. -/
def backlogBytes (s : State) (p : Nat) : Nat := ((pipeOf s p).fifo.map (fun f => f.bytes.length)).foldl (· + ·) 0

/-- backlog_kib, rounded up (R158). -/
def backlogKib (s : State) (p : Nat) : Nat := (backlogBytes s p + 1023) / 1024

/-- The ingress FIFO, 1 MiB (R177). -/
def fifoBytes : Nat := 1048576

/-- Whether a port generates flow control. -/
def fcEnabled (s : State) (port : Nat) : Bool := pipeField s (port / 16) (.mac port) 0 17 16 != 0

/-- tx_quanta. -/
def txQuanta (s : State) (port : Nat) : Nat := pipeField s (port / 16) (.mac port) 1 15 0

/-- Follow a pipe's backlog on one port (R400). -/
def followBacklog (port : Nat) (s : State) : State :=
  let m := macOf s port
  let kib := backlogKib s (port / 16)
  if ¬ (portExists s port ∧ fcEnabled s port) then s
  else if ¬ m.backlogStop ∧ pipeField s (port / 16) (.mac port) 2 10 0 < kib then
    setMac port { m with
      backlogStop := true
      xoffSent := true
      stopAt := s.now
      fcWaiting := some (txQuanta s port) } s
  else if m.backlogStop ∧ kib ≤ pipeField s (port / 16) (.mac port) 2 26 16 then
    setMac port { m with
      backlogStop := false
      fcWaiting := some 0 } s
  else s

/-- Follow a pipe's backlog on every port of the pipe. -/
def followPipe (p : Nat) (s : State) : State :=
  (List.range 16).foldl (fun t n => followBacklog (16 * p + n) t) s

/-- ps of a number of pause quanta, 512 bit times each (R397). -/
def quantaPs (s : State) (port q : Nat) : Nat :=
  q * 512 * 1000000 / (modeMbps (laneMode s port) + b2n (laneMode s port = 0))

/-- PAUSE_REFRESH: half of tx_quanta has passed with the backlog above xon_kib (R400). -/
def execPauseRefresh (port : LaneId) (s : State) : Host.Outcome State Fault Refusal :=
  let m := macOf s port
  .next (if m.backlogStop ∧ fcEnabled s port ∧ pipeField s (port / 16) (.mac port) 2 26 16 < backlogKib s (port / 16)
      ∧ m.stopAt + quantaPs s port (txQuanta s port) / 2 ≤ s.now then
    setMac port { m with
      stopAt := s.now
      fcWaiting := some (txQuanta s port) } s
    else s)

/-- The command send of MAC_FC_TX_CMD: one frame of the port's enabled kind, merged into one that waits (R400). -/
def macFcSend (port : Nat) (resume : Bool) (s : State) : State :=
  let m := macOf s port
  if m.fcWaiting.isSome then s
  else setMac port { m with
    fcWaiting := some (if resume then 0 else txQuanta s port)
    xoffSent := m.xoffSent || !resume
    stopAt := if resume then m.stopAt else s.now } s

/-! ## Receive (R394, R398) -/

/-- 01-80-C2-00-00-01. -/
def pauseAddress : Nat := 0x0180C2000001

/-- Whether a frame is a PAUSE or PFC frame that a port acts on (R398). -/
def actsOn (s : State) (port : Nat) (bs : List Byte) : Bool :=
  beAt bs 0 6 == pauseAddress &&
    ((beAt bs 14 2 == 1 && pipeField s (port / 16) (.mac port) 0 14 14 == 1)
      || (beAt bs 14 2 == 0x0101 && pipeField s (port / 16) (.mac port) 0 15 15 == 1))

/-- The stop of one priority of a PFC frame. -/
def pfcStop (port : Nat) (bs : List Byte) (s : State) (i : Nat) : State :=
  if bitOf (beAt bs 16 2) i then
    countPort port (17 + i) 1 (applyStop port (some i) (s.now + quantaPs s port (beAt bs (18 + 2 * i) 2)) s)
  else s

/-- Act on a PAUSE or PFC frame (R398). -/
def actFlowControl (port : Nat) (bs : List Byte) (s : State) : State :=
  if beAt bs 14 2 = 1 then
    countPort port 8 1 (applyStop port none (s.now + quantaPs s port (beAt bs 16 2)) s)
  else (List.range 8).foldl (pfcStop port bs) s

/-- The Whey reason of a frame that fails a check of the MAC, the first in the order of R394. -/
def macDrop (s : State) (port : Nat) (bs : List Byte) (fault : LineFault) : Option Nat :=
  if fault = .cut then some Wh.frameCut
  else if fault = .uncorrectable then some Wh.fecUncorrectable
  else if fault = .coding then some Wh.codingError
  else if pipeField s (port / 16) (.mac port) 0 13 0 < bs.length then some Wh.oversize
  else if bs.length < 64 then some Wh.undersize
  else if fcsOf (bs.take (bs.length - 4)) ≠ bs.drop (bs.length - 4) then some Wh.fcsError
  else if beAt bs 12 2 = 0x8808 ∧ ¬ actsOn s port bs then some Wh.macControl
  else none

/-- The port counter of a Whey reason of the MAC (R403). -/
def countDrop (port reason : Nat) (bs : List Byte) (s : State) : State :=
  if reason = Wh.frameCut then countPort port 35 1 s
  else if reason = Wh.fecUncorrectable then countPort port 16 1 s
  else if reason = Wh.codingError then countPort port 34 1 s
  else if reason = Wh.oversize then countPort port 5 1 s
  else if reason = Wh.undersize then countPort port 33 1 s
  else if reason = Wh.fcsError then countPort port 4 1 s
  else if reason = Wh.macControl then
    let s1 := countPort port 6 1 s
    if beAt bs 14 2 = 1 ∨ beAt bs 14 2 = 0x0101 then s1 else countPort port 7 1 s1
  else s

/-- Pass a good frame to its pipe's ingress FIFO (R153, R178). -/
def passToPipe (port : Nat) (bs : List Byte) (s : State) : State :=
  let p := port / 16
  if (pipeOf s p).faulted then whey Wh.pipeFault port s
  else if fifoBytes < backlogBytes s p + bs.length then whey Wh.pipeBacklog port s
  else
    let t := lineTime s port (-(portAdj s port 15 0))
    let f : RxFrame := { port := port, bytes := bs, time := t.1, arrivedAt := s.now }
    followPipe p (setPipe p { pipeOf t.2 p with fifo := (pipeOf t.2 p).fifo ++ [f] } t.2)

/-- A port that receives: it is up in the live arrangement. -/
def portUp (s : State) (port : Nat) : Bool := portExists s port && (macOf s port).up

/-- FRAME_RECEIVE (R34, R394, R440): `bytes` from destination address to frame check sequence; `corrected` codewords
were corrected. A port that is not up receives nothing, and an overrun of the crossing drops any frame whole. -/
def execFrameReceive (port : LaneId) (bytes : List Byte) (fault : LineFault) (corrected : Nat) (s : State) :
    Host.Outcome State Fault Refusal :=
  if ¬ portUp s port then .next s
  else if s.triad.stopped.contains port.val then .next (whey Wh.headlessStop port s)
  else
    let s0 := countPort port 15 corrected s
    .next (match macDrop s0 port bytes fault with
      | some r => countDrop port r bytes (whey r port s0)
      | none =>
        let s1 := countGood port 0 bytes s0
        if fault = .overrun then whey Wh.rxFifoOverrun port s1
        else if beAt bytes 12 2 = 0x8808 then actFlowControl port bytes (countPort port 6 1 s1)
        else passToPipe port bytes s1)

/-! ## Transmit records (R419 to R421) -/

/-- Append a record to the queue of a port's group, or lose it (R421). -/
def makeRecord (r : TxRecord) (s : State) : State :=
  let p := r.port / 16
  let q := mget {} s.time.tsq p
  let rec1 := { r with recSeq := q.recSeq }
  let q1 := { q with recSeq := (q.recSeq + 1) % 65536 }
  if q.recs.length < 128 then
    { s with time := { s.time with tsq := mset {} s.time.tsq p { q1 with recs := q.recs ++ [rec1] } } }
  else
    raise .tsq Ev.tsRecordLost (r.identifier + r.port * 2 ^ 16 + q.recSeq * 2 ^ 25)
      { s with time := { s.time with tsq := mset {} s.time.tsq p { q1 with lost := (q.lost + 1) % 2 ^ 32 } } }

/-! ## One-step insertion (R422) -/

/-- The origin form: seconds [47:0] and nanoseconds. -/
def originBytes (t : Nat) : List Byte :=
  beBytes 6 (t / secUnits % 2 ^ 48) ++ beBytes 4 (t % secUnits / 65536)

/-- The correction form: the field plus the residence, saturated at 64 signed bits. -/
def correctionBytes (field : Nat) (t rx : Nat) : List Byte :=
  let sum : Int := signed 64 field + ((t : Int) - rx)
  beBytes 8 (if 2 ^ 63 ≤ sum then 2 ^ 63 - 1 else if sum < -(2 ^ 63) then 2 ^ 63 else twos 64 sum)

/-- The UDP checksum after bytes change at an offset of the frame: HC' = ~(~HC + ~m + m') (RFC 1624), with 0x0000
left and a zero result written as 0xFFFF. -/
def fixChecksum (old new : List Byte) (offset cs : Nat) (bs : List Byte) : List Byte :=
  if beAt bs cs 2 = 0 then bs
  else
    let pad := fun (x : List Byte) => (if offset % 2 = cs % 2 then x else (0 : Byte) :: x)
    let inv := fun v => 65535 - v
    let minus := (onesSum ((pad old).map (fun b => ~~~b)))
    let extra := if offset % 2 = cs % 2 then 0 else 0xFF00
    let c := inv (onesFold (onesFold (inv (beAt bs cs 2) + (minus - extra) + onesSum (pad new))))
    overlay bs cs (beBytes 2 (if c = 0 then 65535 else c))

/-- The frame with its one-step field written for transmit time `t`. -/
def insertTime (f : TxFrame) (t : Nat) : List Byte :=
  match f.oneStep with
  | none => f.bytes
  | some (off, cs, form) =>
    let n := stepWidth form
    let old := bytesAt f.bytes off n
    let new := if form = 0 then originBytes t else correctionBytes (beNat old) t f.rxTime
    let bs := overlay f.bytes off new
    match cs with
    | none => bs
    | some c => fixChecksum old new off c bs

/-! ## Transmit (R396) -/

/-- The bytes of a generated PAUSE or PFC frame without FCS (R398, R400). -/
def fcFrame (s : State) (port quanta : Nat) : List Byte :=
  let addr := rwField s (.mac port) 7 15 0 * 2 ^ 32 + rwField s (.mac port) 6 31 0
  let head := beBytes 6 pauseAddress ++ beBytes 6 addr ++ beBytes 2 0x8808
  if pipeField s (port / 16) (.mac port) 0 17 17 = 1 then
    let mask := pipeField s (port / 16) (.mac port) 1 23 16
    padFrame (head ++ beBytes 2 0x0101 ++ beBytes 2 mask
      ++ (List.range 8).flatMap (fun i => beBytes 2 (if bitOf mask i then quanta else 0)))
  else padFrame (head ++ beBytes 2 1 ++ beBytes 2 quanta)

/-- ps of a frame and its overhead of 20 bytes on the wire (R7). -/
def framePs (s : State) (port len : Nat) : Nat := wirePs s port (len + 20)

/-- Send a generated flow-control frame. -/
def sendFc (port quanta : Nat) (s : State) : State :=
  let body := fcFrame s port quanta
  let bs := body ++ fcsOf body
  let s1 := emit (.frame port bs) (setMac port { macOf s port with
    fcWaiting := none
    xoffSent := quanta != 0
    lpiTx := false
    idleSince := s.now + framePs s port bs.length
    busyUntil := s.now + framePs s port bs.length } s)
  let pfc := ((List.range 8).filter (fun i => bitOf (pipeField s (port / 16) (.mac port) 1 23 16) i)).map
    (fun i => (25 + i, 1))
  let counts := goodCounts 9 bs ++ [(13, 1)]
    ++ (if pipeField s (port / 16) (.mac port) 0 17 17 = 1 then pfc else [(14, 1)])
  onWire port counts none s1

/-- Send a data frame: the time is written into it and into its record, and the hold of its descriptor ends (R260,
R420, R422). -/
def sendData (port : Nat) (f : TxFrame) (rest : List TxFrame) (s : State) : State :=
  let t := lineTime s port (portAdj s port 31 16)
  let body := insertTime f t.1
  let bs := body ++ fcsOf body
  let s1 := emit (.frame port bs) (setMac port { macOf t.2 port with
    queue := rest
    lpiTx := false
    idleSince := s.now + framePs s port bs.length
    busyUntil := s.now + framePs s port bs.length } t.2)
  let s2 := onWire port (goodCounts 9 bs) (f.record.map (fun _ => (mget {} s1.time.tsq (port / 16)).recSeq)) s1
  let s3 := match f.record with
    | none => s2
    | some id => makeRecord { identifier := id, port := port, oneStep := f.oneStep.isSome, holdover := inHoldover s2,
                              notSet := s2.time.notSet, time := t.1 } s2
  match f.desc with
  | some i => endDesc i s3
  | none => s3

/-- FRAME_TRANSMIT: a waiting flow-control frame goes first, then the next whole frame (R396). -/
def execFrameTransmit (port : LaneId) (s : State) : Host.Outcome State Fault Refusal :=
  let m := macOf s port
  let l := mget {} s.lanes port.val
  .next (if ¬ portUp s port ∨ s.triad.stopped.contains port.val ∨ s.now < m.busyUntil ∨ l.txRest ∨ s.now < l.wakeUntil then s
    else match m.fcWaiting with
      | some q => sendFc port q s
      | none => match m.queue with
        | [] => s
        | f :: fs => if f.ready ≤ s.now then sendData port f fs s else s)

/-! ## Low-power idle (R401) -/

/-- Modes whose low-power idle is where IEEE 802.3 defines it (R390). -/
def lpiMode (m : Nat) : Bool := (1 ≤ m && m ≤ 4) || m == 6 || m == 7

/-- Whether a port has nothing to send. -/
def nothingToSend (s : State) (port : Nat) : Bool :=
  decide ((macOf s port).queue = []) && (macOf s port).fcWaiting.isNone
    && !(pipeOf s (port / 16)).egress.any (fun e => e.port == port)

/-- LPI_IDLE_EXPIRY (R401): ports with gates enabled never rest. -/
def execLpiIdleExpiry (port : LaneId) (s : State) : Host.Outcome State Fault Refusal :=
  let m := macOf s port
  .next (if ¬ arrivalsWait s ∧ portUp s port ∧ pipeField s (port / 16) (.mac port) 0 18 18 = 1 ∧ lpiMode (laneMode s port)
      ∧ pipeField s (port / 16) (.gate (port / 16)) (16 * (port % 16)) 0 0 = 0 ∧ nothingToSend s port
      ∧ m.idleSince + pipeField s (port / 16) (.mac port) 5 9 0 * psUs ≤ s.now then
      setMac port { m with lpiTx := true } s
    else s)

/-- LPI_RX_CHANGE: lpi_rx follows the partner while the FEC keeps lock (R401). -/
def execLpiRxChange (port : LaneId) (lpi : Bool) (s : State) : Host.Outcome State Fault Refusal :=
  .next (if portUp s port then setMac port { macOf s port with lpiRx := lpi } s else s)

end Sys2Proof.Machine
end

