-- ==== Sys2Proof/Machine/Lanes.lean ====
section
/-!
DEFINITION. Lanes and tiles (R361 to R389): attempts, training, the eye, FEC lock, rest and tests, and what a lane's
state does to its port or Skov link (R330, R380, R381, R393).
-/
namespace Sys2Proof.Machine

/-! ## Lanes -/

/-- A lane. -/
def laneOf (s : State) (n : Nat) : LaneSt := mget {} s.lanes n

/-- RCLK_OUT[k] follows its lane: squelched when the lane leaves UP or DATA or loses its CDR lock, until the lane is
UP again; a disabled output is not squelched (R426). -/
def followRclk (k : Nat) (s : State) : State :=
  let lane := rwField s .time (16 + k) 8 0
  let x := laneOf s lane
  let set := fun (l : List Nat) (s : State) => { s with time := { s.time with squelched := l } }
  if rwField s .time (16 + k) 9 9 = 0 then set (s.time.squelched.filter (fun i => i != k)) s
  else if s.time.squelched.contains k then
    if x.state = .up ∧ x.cdrLock then set (s.time.squelched.filter (fun i => i != k)) s else s
  else if (x.state = .up ∨ x.state = .data) ∧ x.cdrLock then s
  else raise .time Ev.rclkSquelch (k + lane * 4) (set (s.time.squelched ++ [k]) s)

/-- The outputs that carry a lane's clock follow it. -/
def followRclks (n : Nat) : List Nat → State → State
  | [], s => s
  | k :: ks, s => followRclks n ks (if rwField s .time (16 + k) 8 0 = n then followRclk k s else s)

/-- The state with a lane replaced. -/
def setLane (n : Nat) (x : LaneSt) (s : State) : State :=
  let s1 := { s with lanes := mset {} s.lanes n x }
  if (laneOf s n).state = x.state ∧ (laneOf s n).cdrLock = x.cdrLock then s1 else followRclks n [0, 1, 2, 3] s1

/-- Change every lane of a list. -/
def eachLane (f : LaneSt → LaneSt) : List Nat → State → State
  | [], s => s
  | n :: ns, s => eachLane f ns (setLane n (f (laneOf s n)) s)

/-- A state's code (R376). -/
def LaneState.code : LaneState → Nat
  | .disabled => 0 | .waitSignal => 1 | .frameLock => 2 | .exchange => 3 | .waitPartner => 4
  | .data => 5 | .up => 6 | .backoff => 7 | .test => 8

/-- An RWL field of LANE_CFG (R388). -/
def laneCfg (s : State) (n hi lo : Nat) : Nat := pipeField s (n / 16) (.lane n) 0 hi lo

/-- The engine that trains a lane (R361). -/
def coreOf (n : Nat) : Nat := eTileCore (n / 64) (n % 64 / 32)
where eTileCore (t b : Nat) : Nat := 2 + 2 * t + b

/-- Whether a lane's tile core runs. -/
def coreRuns (s : State) (n : Nat) : Bool :=
  let r := (engine s (coreOf n)).run
  r == .running || r == .waiting

/-- Whether R367 lets a lane of a port or link leave DISABLED in a generation: a spread reference serves only Skov lanes
in common-reference mode. -/
def spreadAllows (s : State) (epoch n : Nat) (link : Bool) : Bool :=
  rwlFieldAt s epoch (.tile (n / 64)) 0 0 0 == 0 || (link && rwlFieldAt s epoch (.lane n) 0 2 2 == 1)

/-- Whether a lane's port or link exists and its tile, its pipe and its PLL serve it (R389). -/
def laneServed (s : State) (n : Nat) : Bool :=
  (laneGroup s n).isSome && bitOf s.tilePll (n / 64) && domainOn s (22 + n / 64) && domainOn s (4 + n / 128)

/-- Whether R367 alone holds a lane of a port or link in DISABLED. -/
def spreadHolds (s : State) (n : Nat) : Bool :=
  laneServed s n && !spreadAllows s (pipeEp s (n / 16)) n (((laneGroup s n).map (fun g => g.link)).getD false)

/-- Whether a lane's port or link exists and R367 and R389 permit it to leave DISABLED. -/
def laneMayRun (s : State) (n : Nat) : Bool := laneServed s n && !spreadHolds s n

/-- The presets of R368 in the layout of R388. -/
def presetCoef (p : Nat) : Nat :=
  let pack := fun (c3 c2 c1 : Int) (c0 : Nat) (cp : Int) =>
    twos 6 c3 + twos 6 c2 * 2 ^ 6 + twos 6 c1 * 2 ^ 12 + c0 * 2 ^ 18 + twos 6 cp * 2 ^ 24
  match p with
  | 2 => pack 0 0 (-6) 57 0
  | 3 => pack 0 0 (-10) 49 (-4)
  | 4 => pack 0 2 (-12) 43 (-6)
  | 5 => pack (-1) 3 (-15) 36 (-8)
  | _ => pack 0 0 0 63 0

/-- The coefficients a lane goes back to (R378). -/
def goodCoef (s : State) (n : Nat) : Nat :=
  if (laneOf s n).everUp then (laneOf s n).known else presetCoef (laneCfg s n 6 4)

/-- LANE_CFG_CONFLICT where R367 holds a lane of a port or link in DISABLED. -/
def noteSpread (n : Nat) (s : State) : State := if spreadHolds s n then raise (.lane n) Ev.laneCfgConflict n s else s

/-- Start a new attempt, where the lane may run and its core runs; else the lane is DISABLED (R361, R367, R376,
R377). -/
def startAttempt (n : Nat) (s : State) : State :=
  let x := laneOf s n
  let may := laneMayRun s n && coreRuns s n
  let fixedTx := laneCfg s n 3 3 == 0
  noteSpread n (setLane n { x with
    state := if may then .waitSignal else .disabled
    signal := false
    cdrLock := false
    fecLock := false
    eye := 0
    eyeLow := false
    coef := if fixedTx then pipeField s (n / 16) (.lane n) 6 29 0 else goodCoef s n
    taps := if x.everUp then x.knownTaps else []
    attemptAt := s.now
    timerAt := s.now
    timeout := rwField s (.lane n) 1 13 0 * psMs
    partnerReady := false
    wakeTx := 0
    wakeRx := 0
    txRest := false
    rxRest := false } s)

/-- Start attempts on lanes. -/
def startAttempts : List Nat → State → State
  | [], s => s
  | n :: ns, s => startAttempts ns (startAttempt n s)

/-- The backoff of a step in ps (R377). -/
def backoffPs (step : Nat) : Nat := if step < 7 then 50 * 2 ^ step * psMs else 5000 * psMs

/-- An attempt fails under an event and a cause (R378). -/
def failAttempt (n event cause : Nat) (s : State) : State :=
  let x := laneOf s n
  let s1 := setLane n { x with
    state := .backoff
    cdrLock := false
    fecLock := false
    eye := 0
    eyeLow := false
    coef := goodCoef s n
    taps := if x.everUp then x.knownTaps else []
    fails := (x.fails + 1) % 2 ^ 32
    backoffUntil := s.now + backoffPs x.backoffStep
    backoffStep := min 7 (x.backoffStep + 1) } s
  raise (.lane n) event (n + x.state.code * 2 ^ 9 + cause * 2 ^ 13) s1

/-- Fail lanes. -/
def failAttempts (event cause : Nat) : List Nat → State → State
  | [], s => s
  | n :: ns, s => failAttempts event cause ns (failAttempt n event cause s)

/-- Whether a lane is in the middle of training. -/
def training (x : LaneSt) : Bool :=
  x.state == .waitSignal || x.state == .frameLock || x.state == .exchange || x.state == .waitPartner

/-! ## What a group's FEC lock does (R376, R380) -/

/-- A port or link stops passing frames (R330, R380). -/
def groupDown (g : LaneGroup) (cause : Nat) (s : State) : State :=
  let s1 := eachLane (fun x => { x with fecLock := false, txRest := false, rxRest := false }) g.lanes s
  if g.link then linkDown g.lowest cause s1
  else setMac g.lowest { macOf s1 g.lowest with up := false, lpiTx := false, lpiRx := false, fcWaiting := none } s1

/-- Whether every lane of a group is in a state. -/
def allIn (s : State) (g : LaneGroup) (st : LaneState) : Bool := g.lanes.all (fun n => (laneOf s n).state == st)

/-- Whether a lane is the lowest of its group, and the group. -/
def groupAt (s : State) (n : Nat) : Option LaneGroup :=
  match laneGroup s n with
  | some g => if g.lowest = n then some g else none
  | none => none

/-- The largest wake time of a group's lanes, in a direction; 0 where a lane agreed none (R382). -/
def groupWake (s : State) (g : LaneGroup) (f : LaneSt → Nat) : Nat :=
  if g.lanes.any (fun n => f (laneOf s n) == 0) then 0
  else (g.lanes.map (fun n => f (laneOf s n))).foldl max 0

/-- A port or link comes up: its frames pass. -/
def groupUp (g : LaneGroup) (s : State) : State :=
  let tx := groupWake s g (fun x => x.wakeTx)
  let rx := groupWake s g (fun x => x.wakeRx)
  let s1 := eachLane (fun x => { x with
    state := .up, fecLock := true, everUp := true, known := x.coef, knownTaps := x.taps, backoffStep := 0
    wakeTx := tx, wakeRx := rx, wakeUntil := 0 }) g.lanes s
  if g.link then linkUp g.lowest s1
  else fillBudget g.lowest (setMac g.lowest { macOf s1 g.lowest with up := true, idleSince := s.now } s1)

/-- FEC_LOCK: the FEC locks on every lane of a port or link (R376). -/
def execFecLock (n : LaneId) (s : State) : Host.Outcome State Fault Refusal :=
  .next (match groupAt s n.val with
    | none => s
    | some g => if allIn s g .data then groupUp g s else s)

/-- The instant at which the last lane of a group entered DATA. -/
def lastDataAt (s : State) (g : LaneGroup) : Nat := (g.lanes.map (fun n => (laneOf s n).dataAt)).foldl max 0

/-- FEC_LOCK_WAIT_EXPIRY: 10 ms pass after the last lane entered DATA; `skew` is the skew found, when it exceeds
the limit of R375 (R377, R378). A lock or a loss of signal of the same clock comes first (R55, R381). -/
def execFecLockWaitExpiry (n : LaneId) (skew : Option (BitVec 16)) (s : State) : Host.Outcome State Fault Refusal :=
  .next (match groupAt s n.val with
    | none => s
    | some g =>
      if arrivalsWait s ∨ ¬ allIn s g .data ∨ s.now < lastDataAt s g + 10 * psMs then s
      else match skew with
        | none => failAttempts Ev.linkTrainFail 3 g.lanes s
        | some v => raise (.lane n.val) Ev.laneSkewExceeded (n.val + b2n g.link * 2 ^ 9 + v.toNat * 2 ^ 16)
            (failAttempts Ev.linkNoPartner 5 g.lanes s))

/-- FEC_LOCK_LOSS: the FEC loses lock for 1 µs while the signal stays (R381). -/
def execFecLockLoss (n : LaneId) (s : State) : Host.Outcome State Fault Refusal :=
  .next (match groupAt s n.val with
    | none => s
    | some g =>
      if allIn s g .up then
        groupDown g 0 (eachLane (fun x => { x with state := .data, dataAt := s.now }) g.lanes s)
      else s)

/-! ## Loss of signal (R381) -/

/-- Put the other lanes of an UP group back to DATA and take the group down. -/
def leaveUp (n cause : Nat) (s : State) : State :=
  match laneGroup s n with
  | none => s
  | some g =>
    if (laneOf s n).state = .up then
      groupDown g cause (eachLane (fun x => if x.state = .up then { x with state := .data, dataAt := s.now } else x)
        g.lanes s)
    else s

/-- A loss of signal at a lane. -/
def loseSignal (n : Nat) (s : State) : State :=
  let x := laneOf s n
  match x.state with
  | .up => startAttempt n (leaveUp n 6 (setLane n { x with losses := (x.losses + 1) % 2 ^ 32 } s))
  | .data => startAttempt n (setLane n { x with losses := (x.losses + 1) % 2 ^ 32 } s)
  | .frameLock => failAttempt n Ev.linkNoPartner 1 (setLane n { x with signal := false } s)
  | .exchange => failAttempt n Ev.linkNoPartner 1 (setLane n { x with signal := false } s)
  | .waitPartner => failAttempt n Ev.linkNoPartner 1 (setLane n { x with signal := false } s)
  | .waitSignal => setLane n { x with signal := false, cdrLock := false } s
  | .disabled => setLane n { x with signal := false } s
  | .backoff => setLane n { x with signal := false } s
  | .test => setLane n { x with signal := false, cdrLock := false } s

/-- A training attempt whose tile core does not run ends as it does under a loss of signal (R361). -/
def settleCore (n : Nat) (s : State) : State :=
  let x := laneOf s n
  if training x && !(x.state == .waitSignal) && !coreRuns s n then loseSignal n s else s

/-- The attempts of a list of lanes whose cores do not run end. -/
def settleCores : List Nat → State → State
  | [], s => s
  | n :: ns, s => settleCores ns (settleCore n s)

/-- The lanes of a tile core (R361). -/
def coreLanes (t b : Nat) : List Nat := (List.range 32).map (fun i => 64 * t + 32 * b + i)

/-- Lose the signal of every lane of a list. -/
def loseSignals : List Nat → State → State
  | [], s => s
  | n :: ns, s => loseSignals ns (loseSignal n s)

/-- LANE_LOSS_OF_SIGNAL (R378, R381). -/
def execLaneLossOfSignal (lane : LaneId) (s : State) : Host.Outcome State Fault Refusal := .next (loseSignal lane.val s)

/-- A Skov link dies for a cause that is not its lanes', and its lanes retrain (R330). -/
def killLink (n cause : Nat) (s : State) : State :=
  match groupAt s n with
  | some g => if (linkOfNo s n).up then startAttempts g.lanes (linkDown n cause (eachLane
      (fun x => { x with fecLock := false, txRest := false, rxRest := false }) g.lanes s)) else s
  | none => linkDown n cause s

/-! ## Training (R376 to R379) -/

/-- Enter DATA. -/
def enterData (n : Nat) (s : State) : State :=
  setLane n { laneOf s n with state := .data, dataAt := s.now } s

/-- SIGNAL_DETECT: signal is detected and the CDR locks (R376). -/
def execSignalDetect (lane : LaneId) (s : State) : Host.Outcome State Fault Refusal :=
  let n := lane.val
  let x := laneOf s n
  .next (match x.state with
    | .waitSignal =>
      if ¬ coreRuns s n then setLane n { x with signal := true } s else
      let s1 := setLane n { x with signal := true, cdrLock := true } s
      if laneCfg s n 3 3 = 0 then enterData n s1 else setLane n { laneOf s1 n with state := .frameLock } s1
    | _ => setLane n { x with signal := true } s)

/-- A coefficient's place in the layout of R388, and whether it is the main cursor. -/
def coefField (c i : Nat) : Int := if i = 3 then (fieldOf c 23 18 : Nat) else signed 6 (fieldOf c (6 * i + 5) (6 * i))

/-- Whether coefficients meet the limits of R368. -/
def coefOk (c : Nat) : Bool :=
  decide (24 ≤ coefField c 3) && decide (coefField c 3 ≤ 63)
    && [0, 1, 2, 4].all (fun i => decide (-16 ≤ coefField c i) && decide (coefField c i ≤ 15))
    && decide (((List.range 5).map (fun i => (coefField c i).natAbs)).foldl (· + ·) 0 ≤ 63)

/-- One step of a coefficient that a partner asks for; held at a limit (R368). -/
def coefStep (c i : Nat) (up : Bool) : Nat :=
  let v := coefField c i + (if up then 1 else -1)
  let c1 := setField c (6 * i + 5) (6 * i) (twos 6 v)
  if (if i = 3 then decide (24 ≤ v) && decide (v ≤ 63) else decide (-16 ≤ v) && decide (v ≤ 15)) && coefOk c1 then c1
  else c

/-- Whether a lane may agree on rest: Skov, or the device's own 425 Gb/s format (R382). -/
def restFormat (s : State) (n : Nat) : Bool :=
  match laneGroup s n with
  | some g => g.link || laneMode s g.lowest == 0xC
  | none => false

/-- Whether a step that a partner asks for would pass a limit, so that the coefficient holds (R368). -/
def stepHeld (c : Nat) (f : TrainFrame) : Bool :=
  match f.request with
  | some r => coefStep c r.1.val r.2 == c
  | none => false

/-- The coefficients after a partner frame. -/
def stepCoef (c : Nat) (f : TrainFrame) : Nat :=
  match f.request with
  | some r => coefStep c r.1.val r.2
  | none => c

/-- What a partner frame says, taken by a lane in EXCHANGE or WAIT_PARTNER; a step past a limit is answered "at limit"
(R368). -/
def takeTraining (n : Nat) (f : TrainFrame) (s : State) : State :=
  let x := laneOf s n
  let rest := restFormat s n && f.wakeNeed.isSome
  setLane n { x with
    timerAt := s.now
    coef := stepCoef x.coef f
    partnerReady := x.partnerReady || f.ready
    wakeTx := if rest then (f.wakeNeed.map (fun w => w.toNat)).getD 0 else x.wakeTx
    wakeRx := if rest then laneCfg s n 14 8 else x.wakeRx }
    (if stepHeld x.coef f then emit (.training n 2) s else s)

/-- A training attempt whose timeout passed in an earlier clock has failed (R55, R379). -/
def settleTimeout (n : Nat) (s : State) : State :=
  let x := laneOf s n
  if training x ∧ x.timerAt + x.timeout + 625 ≤ s.now then failAttempt n Ev.linkNoPartner 0 s else s

/-- TRAINING_FRAME_RECEIVE: a valid partner training frame (R366, R376, R377, R379). -/
def execTrainingFrameReceive (lane : LaneId) (frame : TrainFrame) (s : State) : Host.Outcome State Fault Refusal :=
  let n := lane.val
  let s := settleTimeout n (settleCore n s)
  let x := laneOf s n
  let link := ((laneGroup s n).map (fun g => g.link)).getD false
  .next (match x.state with
    | .frameLock =>
      if link ∧ laneCfg s n 2 2 = 1 ∧ 320 < frame.offset.toInt.natAbs then
        raise (.lane n) Ev.laneRefMismatch (n + frame.offset.toNat * 2 ^ 16) (failAttempt n Ev.linkNoPartner 4 s)
      else
        let s1 := takeTraining n frame s
        setLane n { laneOf s1 n with state := .exchange } s1
    | .exchange => takeTraining n frame s
    | .waitPartner =>
      let s1 := takeTraining n frame s
      if (laneOf s1 n).partnerReady then enterData n s1 else s1
    | _ => s)

/-- RECEIVER_READY: the receiver stops improving with its eye at least at the alarm (R376). -/
def execReceiverReady (lane : LaneId) (s : State) : Host.Outcome State Fault Refusal :=
  let n := lane.val
  let s := settleCore n s
  let x := laneOf s n
  .next (if x.state = .exchange ∧ rwField s (.lane n) 4 15 0 ≤ x.eye then
      let s1 := emit (.training n 1) s
      if x.partnerReady then enterData n s1 else setLane n { x with state := .waitPartner } s1
    else s)

/-- A lane whose training_timeout has passed fails its attempt (R377, R378). -/
def expireTraining (n : Nat) (s : State) : State :=
  let x := laneOf s n
  if training x ∧ x.timerAt + x.timeout ≤ s.now then failAttempt n Ev.linkNoPartner 0 s else s

/-- The lanes of a list. -/
def expireTrainings : List Nat → State → State
  | [], s => s
  | n :: ns, s => expireTrainings ns (expireTraining n s)

/-- TRAINING_TIMEOUT (R377, R378); a partner frame of the same clock comes first (R55, R379). -/
def execTrainingTimeout (lane : LaneId) (s : State) : Host.Outcome State Fault Refusal :=
  .next (if arrivalsWait s then s else expireTraining lane.val (settleCore lane.val s))

/-- ATTEMPT_LIMIT_EXPIRY: 4 × training_timeout from the start of the attempt (R377, R378). -/
def execAttemptLimitExpiry (lane : LaneId) (s : State) : Host.Outcome State Fault Refusal :=
  let s := settleCore lane.val s
  let x := laneOf s lane.val
  .next (if ¬ arrivalsWait s ∧ training x ∧ x.attemptAt + 4 * x.timeout ≤ s.now then
      failAttempt lane.val Ev.linkTrainFail 2 s
    else s)

/-- BACKOFF_END: a new attempt starts, where the tile core runs (R361, R377). -/
def execBackoffEnd (lane : LaneId) (s : State) : Host.Outcome State Fault Refusal :=
  let x := laneOf s lane.val
  .next (if x.state = .backoff ∧ x.backoffUntil ≤ s.now ∧ coreRuns s lane.val then startAttempt lane.val s else s)

/-! ## Adaptation and the eye (R369 to R372) -/

/-- The taps after one update: each moves by at most `step`/512 of its range, by free values. -/
def adaptTaps (step : Nat) : List Nat → SMap Int → State → SMap Int × State
  | [], t, s => (t, s)
  | i :: is, t, s =>
    let d := freeBelow (2 * step + 1) s
    adaptTaps step is (mset 0 t i (max (-256) (min 256 (mget 0 t i + (d.1 : Int) - step)))) d.2

/-- One update of a lane's 30 taps and its CDR loop gain, each tap by at most `step`/512 of its range; what adaptation
finds is free (R369). -/
def adaptLane (n step : Nat) (s : State) : State :=
  let x := laneOf s n
  let r := adaptTaps step (List.range 30) x.taps s
  let g := freeBelow (2 ^ 16) r.2
  setLane n { x with
    taps := r.1
    loopGain := g.1 } g.2

/-- ADAPTATION_UPDATE: one update, by full steps in EXCHANGE and by at most 1/512 of a tap's range in DATA and UP; none
while adapt_freeze is 1 or the core does not run (R361, R369). -/
def execAdaptationUpdate (lane : LaneId) (s : State) : Host.Outcome State Fault Refusal :=
  let n := lane.val
  let x := laneOf s n
  .next (if rwField s (.lane n) 0 25 25 ≠ 0 ∨ ¬ coreRuns s n then s
    else if x.state = .exchange then adaptLane n 512 s
    else if x.state = .data ∨ x.state = .up then adaptLane n 1 s
    else s)

/-- Whether a state measures the eye figure (R370). -/
def measuresEye (x : LaneSt) : Bool :=
  x.state == .exchange || x.state == .waitPartner || x.state == .data || x.state == .up

/-- eye_low follows the eye figure and eye_alarm; LANE_EYE_LOW each time it rises, at most once per second (R372). -/
def followEye (n : Nat) (s : State) : State :=
  let x := laneOf s n
  let low := measuresEye x && decide (x.eye < rwField s (.lane n) 4 15 0)
  let rises := low && !x.eyeLow && (x.lowAt == 0 || decide (x.lowAt - 1 + psSec ≤ s.now))
  let s1 := setLane n { x with
    eyeLow := low
    lowAt := if rises then s.now + 1 else x.lowAt } s
  if rises then raise (.lane n) Ev.laneEyeLow (n + x.eye * 2 ^ 16) s1 else s1

/-- EYE_UPDATE: the figure measured over 1 µs (R370, R372). -/
def execEyeUpdate (lane : LaneId) (eye : BitVec 16) (s : State) : Host.Outcome State Fault Refusal :=
  let n := lane.val
  let x := laneOf s n
  .next (if measuresEye x then
      let v := eye.toNat
      let kept := x.eyes.filter (fun p => decide (s.now < p.1 + 100 * psMs) && decide (p.2 < v))
      followEye n (setLane n { x with
        eye := v
        eyes := kept ++ [(s.now, v)] } s)
    else s)

/-! ## Tiles (R389) -/

/-- The lanes of a tile. -/
def tileLanes (t : Nat) : List Nat := (List.range 64).map (fun i => 64 * t + i)

/-- Disable lanes; a lane that was UP takes its port or link down and counts a loss (R389). -/
def disableLanes : List Nat → State → State
  | [], s => s
  | n :: ns, s =>
    let x := laneOf s n
    let s1 := if x.state = .up then
        leaveUp n 6 (setLane n { x with losses := (x.losses + 1) % 2 ^ 32 } s)
      else s
    disableLanes ns (setLane n { laneOf s1 n with
      state := .disabled, signal := false, cdrLock := false, fecLock := false, eye := 0, eyeLow := false
      txRest := false, rxRest := false } s1)

/-- Start every DISABLED lane of a list that may run; one that R367 alone holds is reported. -/
def wakeLanes : List Nat → State → State
  | [], s => s
  | n :: ns, s => wakeLanes ns (if (laneOf s n).state = .disabled ∧ laneServed s n then startAttempt n s else s)

/-- TILE_PLL_LOSS (R389). -/
def execTilePllLoss (t : Fin 8) (s : State) : Host.Outcome State Fault Refusal :=
  .next (if bitOf s.tilePll t.val then
      let s1 := disableLanes (tileLanes t.val) s
      { s1 with tilePll := s1.tilePll - 2 ^ t.val }
    else s)

/-- TILE_PLL_LOCK: the tile's lanes that a port or link holds start (R376, R389). -/
def execTilePllLock (t : Fin 8) (s : State) : Host.Outcome State Fault Refusal :=
  .next (if bitOf s.tilePll t.val ∨ ¬ domainOn s (22 + t.val) then s
    else wakeLanes (tileLanes t.val) { s with tilePll := s.tilePll + 2 ^ t.val })

/-! ## Rest (R382 to R385) -/

/-- Whether a group may rest: a port whose gates are enabled never does (R401). -/
def gatesAllowRest (s : State) (g : LaneGroup) : Bool :=
  g.link || pipeField s (g.lowest / 16) (.gate (g.lowest / 16)) (16 * (g.lowest % 16)) 0 0 == 0

/-- Whether a group's sender has had nothing to send for rest_idle_us, and its replay buffer is empty (R383). -/
def restIdle (s : State) (g : LaneGroup) : Bool :=
  let us := laneCfg s g.lowest 24 15 * psUs
  if g.link then
    let x := linkOfNo s g.lowest
    x.waiting.isEmpty && x.replay.isEmpty && decide (x.busyAt + us ≤ s.now)
  else nothingToSend s g.lowest && decide ((macOf s g.lowest).idleSince + us ≤ s.now)

/-- REST_IDLE_EXPIRY: the transmit direction enters rest (R383, R385). -/
def execRestIdleExpiry (n : LaneId) (s : State) : Host.Outcome State Fault Refusal :=
  .next (match groupAt s n.val with
    | none => s
    | some g =>
      if ¬ arrivalsWait s ∧ allIn s g .up ∧ ¬ (laneOf s n.val).txRest ∧ laneCfg s n.val 7 7 = 1 ∧ (laneOf s n.val).wakeTx ≠ 0
        ∧ restFormat s n.val ∧ gatesAllowRest s g ∧ restIdle s g then
        emit (.restSignal n.val 0) (eachLane (fun x => { x with txRest := true, refreshSent := s.now }) g.lanes s)
      else s)

/-- REST_REFRESH: a refresh burst every 100 µs (R383). -/
def execRestRefresh (n : LaneId) (s : State) : Host.Outcome State Fault Refusal :=
  .next (match groupAt s n.val with
    | none => s
    | some g =>
      if (laneOf s n.val).txRest ∧ (laneOf s n.val).refreshSent + 100 * psUs ≤ s.now then
        emit (.restSignal n.val 1) (eachLane (fun x => { x with refreshSent := s.now }) g.lanes s)
      else s)

/-- REST_WAKE: something to send arrives, or rest_enable is cleared (R383, R385). -/
def execRestWake (n : LaneId) (s : State) : Host.Outcome State Fault Refusal :=
  .next (match groupAt s n.val with
    | none => s
    | some g =>
      let x := laneOf s n.val
      let wanted := laneCfg s n.val 7 7 == 0 || (if g.link then !(linkOfNo s n.val).waiting.isEmpty
        else !nothingToSend s n.val)
      if x.txRest ∧ wanted then
        emit (.restSignal n.val 2) (eachLane
          (fun y => { y with txRest := false, wakeUntil := s.now + x.wakeTx * psUs }) g.lanes s)
      else s)

/-- REST_MARKER_RECEIVE: the partner's direction rests, or sends a refresh (R383). -/
def execRestMarkerReceive (n : LaneId) (refresh : Bool) (s : State) : Host.Outcome State Fault Refusal :=
  .next (match groupAt s n.val with
    | none => s
    | some g =>
      if ¬ allIn s g .up then s
      else if refresh then
        if (laneOf s n.val).rxRest then eachLane (fun x => { x with refreshSeen := s.now }) g.lanes s else s
      else if (laneOf s n.val).wakeRx = 0 then s
      else eachLane (fun x => { x with rxRest := true, refreshSeen := s.now }) g.lanes s)

/-- REFRESH_TIMEOUT: no refresh for 250 µs (R385). -/
def execRefreshTimeout (n : LaneId) (s : State) : Host.Outcome State Fault Refusal :=
  .next (match groupAt s n.val with
    | none => s
    | some g =>
      if ¬ arrivalsWait s ∧ (laneOf s n.val).rxRest ∧ (laneOf s n.val).refreshSeen + 250 * psUs ≤ s.now then
        loseSignals g.lanes s
      else s)

/-- WAKE_END: the wake time of the receive direction ends; without CDR lock loss of signal is declared (R384,
R385). -/
def execWakeEnd (n : LaneId) (cdr : Bool) (s : State) : Host.Outcome State Fault Refusal :=
  .next (match groupAt s n.val with
    | none => s
    | some g =>
      if ¬ (laneOf s n.val).rxRest then s
      else if ¬ cdr then loseSignals g.lanes s
      else
        let s1 := eachLane (fun x => { x with rxRest := false }) g.lanes s
        if g.link then setLink n.val { linkOfNo s1 n.val with heardAt := s.now } s1 else s1)

/-! ## Tests (R386, R387) -/

/-- Whether the checker runs on a PRBS (R387). -/
def checkerRuns (val : Nat) : Bool := bitOf val 3 && (val % 8 == 1 || val % 8 == 2)

/-- Whether the checker locks at once: its own generator is looped back to it (R386, R387). -/
def checkerLocks (val : Nat) : Bool := checkerRuns val && fieldOf val 5 4 == 1

/-- One core clock of a lane's checker: a locked one counts the bit errors it meets, and it then follows what reaches it
(R387). -/
def runChecker (n : Nat) (s : State) : State :=
  let x := laneOf s n
  if x.state ≠ .test then s
  else
    let val := rwBits s (.lane n) 8
    setLane n { x with
      prbsErrors := if x.checkerLocked then (x.prbsErrors + Sys2Proof.Config.bitErrors n s.now) % 2 ^ 32 else x.prbsErrors
      checkerLocked := checkerLocks val || (checkerRuns val && Sys2Proof.Config.prbsLocked n s.now) } s

/-- The checkers of a list of lanes. -/
def runCheckers : List Nat → State → State
  | [], s => s
  | n :: ns, s => runCheckers ns (runChecker n s)

/-- The effect of a LANE_TEST value on a lane (R386). -/
def applyLaneTest (n val : Nat) (s : State) : State :=
  let x := laneOf s n
  if val % 64 = 0 then
    if x.state = .test then startAttempt n (setLane n { x with checkerLocked := false } s) else s
  else if x.state = .test then setLane n { x with checkerLocked := checkerLocks val } s
  else
    let s1 := leaveUp n 0 s
    raise (.lane n) Ev.laneTestActive n (setLane n { laneOf s1 n with
      state := .test, fecLock := false, eye := 0, eyeLow := false, checkerLocked := checkerLocks val } s1)

/-! ## A pipe's new arrangement (R363, R393) -/

/-- What holds a lane in a generation: its group, mode code and link rate. -/
def laneHold (s : State) (epoch n : Nat) : Option (LaneGroup × Nat × Nat) :=
  ((laneGroups s epoch (n / 16)).find? (fun g => g.has n)).map
    (fun g => (g, laneModeAt s epoch g.lowest, skovField s epoch g.lowest 10 10))

/-- Whether R367 treats a lane the same in two generations. -/
def sameSpread (s : State) (old new n : Nat) : Bool :=
  let allows := fun e => spreadAllows s e n (((laneHold s e n).map (fun h => h.1.link)).getD false)
  allows old == allows new

/-- End the frame a port has on the wire: it counts nowhere and its record is marked (R393). -/
def cutWire (port : Nat) (s : State) : State :=
  let m := macOf s port
  if m.busyUntil ≤ s.now then s
  else
    let s1 := m.wireCounts.foldl (fun t c => countPort port c.1 (2 ^ 64 - c.2) t)
      (emit (.cut port) (setMac port { m with busyUntil := s.now, wireCounts := [], wireRecord := none } s))
    match m.wireRecord with
    | none => s1
    | some k =>
      let q := mget {} s1.time.tsq (port / 16)
      { s1 with time := { s1.time with tsq := mset {} s1.time.tsq (port / 16) { q with
          recs := q.recs.map (fun r => if r.recSeq = k then { r with aborted := true } else r) } } }

/-- Start over the lanes of a pipe whose holder changes at its cut-over, `old` to `new`; one that R367 starts or stops
holding starts or stops (R363, R367, R393). -/
def moveLanes (old new : Nat) : List Nat → State → State
  | [], s => s
  | n :: ns, s =>
    if laneHold s old n = laneHold s new n then
      moveLanes old new ns (if sameSpread s old new n ∨ (laneOf s n).state = .test then s
        else startAttempt n (leaveUp n 0 s))
    else
      let s1 := if laneModeAt s old n ≠ laneModeAt s new n then
          setMac n { macOf (cutWire n s) n with up := false, lpiTx := false, lpiRx := false } (cutWire n s) else s
      let x := laneOf s1 n
      let s2 := setLane n { x with backoffStep := 0 } s1
      moveLanes old new ns (if x.state = .test then s2 else startAttempt n s2)

/-- Links of a pipe that go down because their lanes move. -/
def dropLinks (old new : Nat) : List Nat → State → State
  | [], s => s
  | n :: ns, s => dropLinks old new ns
      (if laneHold s old n ≠ laneHold s new n then linkDown n 0 s else s)

/-- The conflicts that keep a new generation's links down are raised (R321, R393). -/
def raiseConflicts (old epoch : Nat) : List Nat → State → State
  | [], s => s
  | n :: ns, s =>
    let same := linkEnabled s old n && linkConflict s old n == linkConflict s epoch n
      && slotHolder s old n == slotHolder s epoch n
    if ¬ linkEnabled s epoch n ∨ same then raiseConflicts old epoch ns s
    else
      let s1 := if linkConflict s epoch n then raise (.skov n) Ev.portLaneConflict n s else s
      let s2 := match slotHolder s epoch n with
        | some m => raise (.skov n) Ev.skovSlotConflict (n + skovField s epoch n 9 4 * 2 ^ 9 + m * 2 ^ 15) s1
        | none => s1
      raiseConflicts old epoch ns s2

/-- The lanes of a pipe. -/
def pipeLanes (p : Nat) : List Nat := (List.range 16).map (fun i => 16 * p + i)

end Sys2Proof.Machine
end

