-- ==== Sys2Proof/Machine/PacketPath.lean ====
section
/-!
DEFINITION. The ingress sequence (R154 to R169, R176 to R178), the enqueue decision (R284), mirrors (R179, R522,
R523) and the egress sequence (R157, R172 to R175).
-/
namespace Sys2Proof.Machine

/-! ## Environments of a program run -/

/-- default_vrf of a port (R158). -/
def defaultVrf (s : State) (epoch port : Nat) : Nat := rwlFieldAt s epoch (.pipe (port / 16)) (16 + port % 16) 17 4

/-- What an ingress program run takes from its frame (R148, R297, R518). -/
def ingressEnv (s : State) (epoch : Nat) (f : RxFrame) (fragFlip : Bool) : PEnv :=
  let len := f.bytes.length
  { ingress := true, pipe := f.port / 16, epoch := epoch, port := f.port
    policeLen := counted ((len : Int) + portOverhead s f.port), countLen := len
    seed := rwlFieldAt s epoch (.pipe (f.port / 16)) 0 31 0, vrf := defaultVrf s epoch f.port, fragFlip := fragFlip }

/-- What an egress program run takes from its frame. -/
def egressEnv (s : State) (port : Nat) (r : Rind) : PEnv :=
  { ingress := false, pipe := port / 16, epoch := readEpoch s r.epoch, port := r.ingressPort
    policeLen := counted ((r.length : Int) + portOverhead s port), countLen := r.length
    seed := rwlFieldAt s (readEpoch s r.epoch) (.pipe (port / 16)) 0 31 0
    vrf := defaultVrf s (readEpoch s r.epoch) r.ingressPort }

/-- m0 on ingress (R95). -/
def ingressM0 (port len prof cls epoch : Nat) : Nat :=
  port + len * 2 ^ 9 + prof * 2 ^ 23 + cls * 2 ^ 32 + epoch * 2 ^ 36

/-- m2: the low 32 bits of the seconds and the nanoseconds of a time (R95). -/
def timeM2 (sec ns : Nat) : Nat := sec % 2 ^ 32 * 2 ^ 32 + ns

/-- The registers at ingress step 1 (R94, R95). -/
def ingressRegs (img prof cls epoch : Nat) (f : RxFrame) : PRegs :=
  let x := extractRegs img f.bytes
  mset 0 (mset 0 (mset 0 x.1 0x40 (ingressM0 f.port f.bytes.length prof cls epoch)) 0x41 x.2)
    0x42 (timeM2 (f.time / secUnits) (f.time % secUnits / 65536))

/-- m0 on egress (R172). -/
def egressM0 (port : Nat) (r : Rind) : Nat :=
  port + r.length * 2 ^ 9 + r.profile * 2 ^ 23 + r.queue % 8 * 2 ^ 32 + r.sourceUnit * 2 ^ 35
    + r.epoch * 2 ^ 45 + r.dropPrec * 2 ^ 61 + b2n (r.kind == 2) * 2 ^ 63

/-- The registers at egress step 1 (R172, R173). -/
def egressRegs (img port : Nat) (r : Rind) (bytes : List Byte) : PRegs :=
  let x := extractRegs img bytes
  mset 0 (mset 0 (mset 0 x.1 0x40 (egressM0 port r)) 0x41 (x.2 + r.metadata * 2 ^ 48))
    0x42 (timeM2 r.seconds r.nanoseconds)

/-- Result register m(n). -/
def resultReg (run : PRun) (n : Nat) : Nat := pread run.regs (0x40 + n)

/-! ## Mirrors (R179, R522, R523) -/

/-- A mirror session's image in the generation of an epoch. -/
def mirrorSession (s : State) (epoch n : Nat) : Nat := tblGet s epoch 0x10 0 n

/-- Count a mirror copy that could not be made. -/
def countMirrorDrop (n port : Nat) (s : State) : State :=
  let s1 := whey Wh.mirrorDrop port s
  { s1 with mirror := { s1.mirror with drops := mset 0 s1.mirror.drops n ((mget 0 s1.mirror.drops n + 1) % 2 ^ 32) } }

/-- Mirror copies with recorded edits (R523). -/
def editRecords (s : State) : Nat := (s.descs.filter (fun d => d.2.edit.isSome)).length

/-- The Rind of a mirror copy: kind mirror, its session, the session's queue and drop precedence, the cut length. -/
def mirrorRind (r : Rind) (n img len : Nat) : Rind :=
  { r with kind := 2, mirrorSession := n, queue := fieldOf img 51 32, dropPrec := fieldOf img 2 1, length := len
           copyIndex := 0 }

/-- Make one mirror copy of a stored frame: a descriptor claimed for the session that shares the chain's first
cells, enqueued on the session's queue. `edit` holds an egress mirror's edited bytes. -/
def makeMirror (n img port : Nat) (d : Desc) (edit : Option (List Byte)) (s : State) : State :=
  let cut := fieldOf img 77 64
  let full := match edit with
    | some bs => bs.length + 4
    | none => d.rind.length
  let len := if cut = 0 then d.rind.length else min cut d.rind.length
  let r := mirrorRind d.rind n img len
  let bytes := edit.map (fun bs => if cut = 0 then bs else bs.take (min cut full - 4))
  if edit.isSome ∧ 16384 ≤ editRecords s then countMirrorDrop n port s
  else if (enqueueDecision s r.queue r.epoch r.dropPrec len).isSome then countMirrorDrop n port s
  else match claim 7 (ownerName 6 n) 1 s with
    | (some (i :: _), s1) =>
      let g := govern s1 (handle 0 d.firstCell)
      let rec1 := mget {} s1.vat.held g
      let s2 := { s1 with vat := { s1.vat with held := mput s1.vat.held g { rec1 with holds := rec1.holds + 1 } } }
      let st := stampSequence r.queue r s2
      let d1 : Desc :=
        { rind := st.1, firstCell := d.firstCell, cellCount := cellsFor len, holderQueue := r.queue
          enqueuedAt := s.now, edit := bytes }
      postEnqueue r.queue i (setRecord (handle 7 i) (ownerName 6 n) 1 (setDesc i d1 st.2))
    | (_, s1) => countMirrorDrop n port s1

/-- Requests that the mirror engine has served in this core clock (R523). -/
def servedNow (s : State) : Nat := if s.mirror.servedAt = s.now then s.mirror.served else 0

/-- A mirror request: where PD13 is on, the session is valid, the request is one of the first 8 of its clock and it is the
sampled one, its copy is made (R522, R523, R531). -/
def sampledMirror (epoch n : Nat) (make : State → State) (s : State) : State :=
  let img := mirrorSession s epoch n
  if ¬ bitOf img 0 ∨ ¬ domainOn s 13 then s
  else if 8 ≤ servedNow s then
    { s with mirror := { s.mirror with drops := mset 0 s.mirror.drops n ((mget 0 s.mirror.drops n + 1) % 2 ^ 32) } }
  else
    let c := mget 0 s.mirror.sample n
    let s1 := { s with mirror := { s.mirror with
      served := servedNow s + 1
      servedAt := s.now
      sample := mset 0 s.mirror.sample n (if c + 1 < fieldOf img 111 96 then c + 1 else 0) } }
    if c = 0 then make s1 else s1

/-- The mirror copy that a frame's program requests (R179, R522). -/
def requestMirror (epoch n port : Nat) (d : Desc) (edit : Option (List Byte)) (s : State) : State :=
  sampledMirror epoch n (makeMirror n (mirrorSession s epoch n) port d edit) s

/-- The mirror copy of a frame that could not be stored is dropped (R179). -/
def loseMirror (epoch : Nat) (run : PRun) (port : Nat) (s : State) : State :=
  let m5 := resultReg run 5
  if bitOf m5 0 then sampledMirror epoch (fieldOf m5 6 1) (countMirrorDrop (fieldOf m5 6 1) port) s else s

/-! ## What ingress decides (R167, R168, R176) -/

/-- One copy of a frame to enqueue: queue, kind, copy index. -/
structure CopySpec where
  queue : Nat
  kind : Nat
  index : Nat
deriving DecidableEq, Repr, Inhabited

/-- The copies of a group, in member order; members without a valid queue are left out (R176). -/
def groupCopies (s : State) (epoch g cls : Nat) : List CopySpec :=
  let img := ecmpGroup s epoch g
  (List.range (groupCount img)).filterMap (fun j =>
    let nh := nextHop s epoch (groupMember img j)
    if bitOf nh 20 then some { queue := fieldOf nh 19 0 / 8 * 8 + cls, kind := 1, index := j } else none)

/-- Members of a group whose next hop carries no valid queue. -/
def deadMembers (s : State) (epoch g : Nat) : Nat :=
  let img := ecmpGroup s epoch g
  ((List.range (groupCount img)).filter (fun j => !bitOf (nextHop s epoch (groupMember img j)) 20)).length

/-- What the pipe does with a frame after step 12: the entries it enqueues, the Whey counts of what it drops, reason and
number, and the drop_reason of a PROGRAM_DROP. -/
structure Verdict where
  copies : List CopySpec := []
  drops : List (Nat × Nat) := []
  reason : Option Nat := none
deriving DecidableEq, Repr

/-- The pipe's control queue (R158). -/
def controlQueue (s : State) (epoch pipe : Nat) : Nat := rwlFieldAt s epoch (.pipe pipe) 5 19 0

/-- A copy for the control queue. -/
def controlCopy (s : State) (epoch pipe : Nat) : CopySpec := { queue := controlQueue s epoch pipe, kind := 3, index := 0 }

/-- The part of an action that forwards: on the named queue, or by the profile's default disposition (R168). -/
def forwardPart (s : State) (epoch pipe prof m3 : Nat) : Verdict :=
  if bitOf m3 63 then { copies := [{ queue := fieldOf m3 19 0, kind := 0, index := 0 }] }
  else if fieldOf (profileImage s epoch pipe prof) 25 24 = 1 then { copies := [controlCopy s epoch pipe] }
  else { drops := [(Wh.noResult, 1)] }

/-- The verdict on a frame (R168, R176). -/
def verdict (s : State) (epoch pipe prof : Nat) (run : PRun) : Verdict :=
  let m3 := resultReg run 3
  match resultReg run 4 % 16 with
  | 0 => forwardPart s epoch pipe prof m3
  | 1 => { drops := [(Wh.programDrop, 1)], reason := some (fieldOf (resultReg run 4) 11 4) }
  | 2 => { copies := [controlCopy s epoch pipe] }
  | 3 =>
    let v := forwardPart s epoch pipe prof m3
    { v with copies := v.copies ++ [controlCopy s epoch pipe] }
  | 4 =>
    let g := fieldOf (resultReg run 6) 15 0
    if groupCount (ecmpGroup s epoch g) = 0 then { drops := [(Wh.noResult, 1)] }
    else
      let dead := deadMembers s epoch g
      { copies := groupCopies s epoch g (fieldOf (resultReg run 6) 18 16)
        drops := if dead = 0 then [] else [(Wh.noResult, dead)] }
  | _ => { drops := [(Wh.resultInvalid, 1)] }

/-- The Rind the unit builds for a copy (R170). -/
def buildRind (s : State) (epoch prof egressDefault : Nat) (f : RxFrame) (run : PRun) (c : CopySpec) : Rind :=
  let m4 := resultReg run 4
  let m5 := resultReg run 5
  { dropPrec := min (fieldOf m4 13 12) 2, kind := c.kind, sourceUnit := s.roll.unit
    incarnation := s.roll.incarnation
    egressSlot := if bitOf m5 13 then fieldOf m5 12 7 else egressDefault
    queue := c.queue, ingressPort := f.port, epoch := epoch, length := f.bytes.length
    seconds := f.time / secUnits, nanoseconds := f.time % secUnits / 65536, fraction := f.time % 65536
    profile := prof, mirrorSession := 0, flowHash := resultReg run 7 % 2 ^ 32
    metadata := fieldOf m5 47 32, copyIndex := c.index }

/-- The position of the copy whose queue becomes last owner: the one with the highest copy index, which is the last
copy of a group; the forwarded frame before its control copy (R259, notes/assumptions 8). -/
def lastCopy (cs : List CopySpec) : Nat :=
  match cs with
  | [] => 0
  | c :: _ => if c.kind = 1 then cs.length - 1 else 0

/-- Hand the copies of a stored frame to the enqueue path, each with its descriptor (R177, R259). -/
def postCopies (o first count last : Nat) (rinds : List Rind) (descs : List Nat) (s : State) : State :=
  ((rinds.zip descs).zipIdx).foldl (fun t p =>
    let d : Desc :=
      { rind := p.1.1, firstCell := first, cellCount := count, holderQueue := p.1.1.queue }
    let t1 := setRecord (handle 7 p.1.2) o 1 (setDesc p.1.2 d t)
    { t1 with enqPath := t1.enqPath ++ [{ desc := p.1.2, owner := o, last := decide (p.2 = last) }] }) s

/-- An ingress mirror of a frame as received; without a stored frame there is nothing to share (R179). -/
def ingressMirror (epoch prof egressDefault : Nat) (f : RxFrame) (run : PRun) (first count : Nat) (s : State) : State :=
  let m5 := resultReg run 5
  if bitOf m5 0 then
    let r := buildRind s epoch prof egressDefault f run { queue := 0, kind := 2, index := 0 }
    requestMirror epoch (fieldOf m5 6 1) f.port { rind := r, firstCell := first, cellCount := count } none s
  else s

/-- A frame that is dropped after step 12, with its mirror: the mirror copy alone holds the chain. -/
def mirrorOnly (epoch prof egressDefault : Nat) (f : RxFrame) (run : PRun) (s : State) : State :=
  let o := ownerName 1 (f.port / 16)
  if ¬ bitOf (resultReg run 5) 0 then s
  else match claimFrame o f.bytes.length 0 s with
    | (some (cells, _), s1) =>
      let first := cells.headD noLink
      endOwnerHold (handle 0 first)
        (ingressMirror epoch prof egressDefault f run first cells.length (storeFrame cells f.bytes o s1))
    | (none, s1) => loseMirror epoch run f.port s1

/-- Store a frame and post its copies and its mirror, or drop it whole for want of buffers (R263, R266). -/
def storeAndPost (epoch prof egressDefault : Nat) (f : RxFrame) (run : PRun) (cs : List CopySpec) (s : State) : State :=
  let o := ownerName 1 (f.port / 16)
  match claimFrame o f.bytes.length cs.length s with
  | (none, s1) => loseMirror epoch run f.port (whey (claimReason o f.bytes.length s) f.port s1)
  | (some (cells, descs), s1) =>
    let first := cells.headD noLink
    let s2 := storeFrame cells f.bytes o s1
    let s3 := setRecord (handle 0 first) o cs.length s2
    let s4 := postCopies o first cells.length (lastCopy cs)
      (cs.map (buildRind s epoch prof egressDefault f run)) descs s3
    ingressMirror epoch prof egressDefault f run first cells.length s4

/-- Count a list of drops. -/
def countDrops (port : Nat) : List (Nat × Nat) → State → State
  | [], s => s
  | d :: ds, s => countDrops port ds (wheyN d.1 d.2 port s)

/-- Whether an entry that the copies of a frame read fails parity: the group, or a member's next hop (R176, R250). -/
def copiesBad (s : State) (epoch : Nat) (run : PRun) : Bool :=
  let g := fieldOf (resultReg run 6) 15 0
  decide (resultReg run 4 % 16 = 4) && (badEntry s 5 0 g
    || (List.range (groupCount (ecmpGroup s epoch g))).any (fun j => badEntry s 4 0 (groupMember (ecmpGroup s epoch g) j)))

/-- Whether what a pipe fetches for a frame fails parity: its profile or its program (R431). -/
def fetchBad (s : State) (type pipe prof slot : Nat) : Bool := badEntry s 0x0A pipe prof || badEntry s type pipe slot

/-- One frame through an ingress pipe (R154); one that met a parity failure is dropped after its sequence (R250,
R431). -/
def ingressFrame (f : RxFrame) (flip : PipeFlip) (s : State) : State :=
  let p := f.port / 16
  let epoch := mget 0 s.epoch.pipeEpoch p
  let cls := rwlFieldAt s epoch (.pipe p) (16 + f.port % 16) 3 0
  let prof := selectProfile s epoch p cls f.bytes
  let img := profileImage s epoch p prof
  let x := runProgram (ingressEnv s epoch f (decide (flip = .frag))) (progImage s epoch 0x0B p (fieldOf img 17 12))
    (ingressRegs img prof cls epoch f) s
  let s1 := match x.1.frag with
    | some place => fragRecord place x.1.walk (stepInstant s x.1.walkStep 0) x.2
    | none => x.2
  let bad := x.1.parity || copiesBad s1 epoch x.1 || fetchBad s 0x0B p prof (fieldOf img 17 12)
  if flip = .logic ∨ flip = .stored then countPipeFlip p flip (whey Wh.parity f.port s1)
  else if bad then whey Wh.parity f.port s1
  else
  let v := verdict s1 epoch p prof x.1
  let s2 := (match v.reason with
    | some r => noteReason r
    | none => id) (countDrops f.port v.drops s1)
  if v.copies = [] then mirrorOnly epoch prof (fieldOf img 23 18) f x.1 s2
  else storeAndPost epoch prof (fieldOf img 23 18) f x.1 v.copies s2

/-- Whether entries of a pipe's last frame still hold its enqueue path: the pipe's next frame waits in the ingress FIFO
(R177, R181). -/
def pathHeld (s : State) (pipe : Nat) : Bool := s.enqPath.any (fun it => it.owner == ownerName 1 pipe)

/-- INGRESS_SEQUENCE: a pipe that is neither faulted nor paused, and whose enqueue path is free, takes the first frame of
its FIFO (R154, R177, R193, R436). -/
def execIngressSequence (pipe : PipeId) (flip : PipeFlip) (s : State) : Host.Outcome State Fault Refusal :=
  let x := pipeOf s pipe
  .next (if x.faulted ∨ x.paused ∨ ¬ domainOn s (4 + pipe.val / 8) ∨ pathHeld s pipe then s
    else match x.fifo with
      | [] => s
      | f :: fs => ingressFrame f flip (perfEvent { code := 0x010, master := pipe.val }
          (followPipe pipe (setPipe pipe { x with fifo := fs } s))))

/-! ## Enqueue (R284) -/

/-- Drop a frame of the enqueue path: its hold ends and its descriptor returns. -/
def dropEnqueue (it : EnqItem) (reason : Nat) (s : State) : State :=
  let d := desc s it.desc
  let h := handle 0 d.firstCell
  freeDescSlot it.desc ((if it.last then endOwnerHold h else endOneHold h) (whey reason d.rind.ingressPort s))

/-- A frame of the enqueue path joins its queue: the queue takes the pipe's hold (R50, R259, R287). -/
def joinEnqueue (it : EnqItem) (s : State) : State :=
  let d := desc s it.desc
  let q := d.rind.queue
  let st := stampSequence q d.rind s
  let g := govern st.2 (handle 0 d.firstCell)
  let r := mget {} st.2.vat.held g
  let s1 := if it.last then setRecord g (queueOwner q) r.holds st.2 else st.2
  let s2 := setRecord (handle 7 it.desc) (queueOwner q) 1
    (setDesc it.desc { d with rind := st.1, holderQueue := q, enqueuedAt := s.now } s1)
  let kind := it.owner / 2 ^ 28
  let master := if kind = 1 ∨ kind = 2 then it.owner % 64 else if kind = 10 then 0x38 else d.rind.ingressPort / 16 % 32
  postEnqueue q it.desc (perfEvent { code := 0x011, master := master, cls := some (q % 8) } s2)

/-- ENQUEUE: the oldest entry of the enqueue path is decided, from the clock in which it arrives there (R55, R284); a
transfer over the crossbar that fails parity drops its frame (R431). -/
def execEnqueue (flip : Bool) (s : State) : Host.Outcome State Fault Refusal :=
  match s.enqPath with
  | [] => .next s
  | it :: its =>
    if s.now < it.ready then .next s
    else
    let s0 := { s with enqPath := its }
    let d := desc s0 it.desc
    .next (if flip then dropEnqueue it Wh.parity s0 else match enqueueDecision s0 d.rind.queue d.rind.epoch d.rind.dropPrec d.rind.length with
      | some r => dropEnqueue it r s0
      | none => joinEnqueue it s0)

/-! ## Egress (R157, R172 to R175) -/

/-- The head frame of the egress sequence is dropped under a reason. -/
def dropEgress (it : EgressItem) (reason : Nat) (s : State) : State := dropDesc it.desc reason it.port s

/-- The edited frame goes to the pipe's control queue in place of the port (R175, R257, R266). -/
def egressToControl (it : EgressItem) (bs : List Byte) (s : State) : State :=
  let d := desc s it.desc
  let p := it.port / 16
  let o := ownerName 2 p
  let full := bs ++ fcsOf bs
  match claimFrame o full.length 1 s with
  | (some (cells, i :: _), s1) =>
    let first := cells.headD noLink
    let r := { d.rind with
      kind := 3
      queue := controlQueue s (readEpoch s d.rind.epoch) p
      length := full.length }
    let s2 := storeFrame cells full o s1
    endDesc it.desc (postCopies o first cells.length 0 [r] [i] s2)
  | (_, s1) => endDesc it.desc (whey Wh.noCell it.port s1)

/-- The frame goes to the MAC with what its program asked (R150, R157, R175, R297). -/
def egressToMac (it : EgressItem) (x : EditRun) (m6 : Nat) (s : State) : State :=
  let r := (desc s it.desc).rind
  let f : TxFrame :=
    { bytes := x.bytes, desc := some it.desc, record := if bitOf m6 16 then some (fieldOf m6 15 0) else none
      oneStep := x.oneStep, rxTime := r.seconds * secUnits + r.nanoseconds * nsUnits + r.fraction
      ready := it.selectedAt + 220000 }
  let m := macOf s it.port
  creditShapers it (x.bytes.length + 4) (setMac it.port { m with queue := m.queue ++ [f] } s)

/-- What the unit reads after egress step 8 (R152, R175, R179). -/
def egressResults (it : EgressItem) (body : List Byte) (run : PRun) (s : State) : State :=
  let d := desc s it.desc
  match editFrame body run.edits (pipeField s (it.port / 16) (.mac it.port) 0 13 0) with
  | .error r => dropEgress it r s
  | .ok x =>
    let m5 := resultReg run 5
    let s1 := if bitOf m5 0 then
        requestMirror (readEpoch s d.rind.epoch) (fieldOf m5 6 1) it.port d (some x.bytes) s
      else s
    match resultReg run 4 % 16 with
    | 0 => egressToMac it x (resultReg run 6) s1
    | 1 => dropEgress it Wh.programDrop (noteReason (fieldOf (resultReg run 4) 11 4) s1)
    | 2 => egressToControl it x.bytes s1
    | _ => dropEgress it Wh.resultInvalid s1

/-- A frame that met a parity failure in the egress pipe is dropped after its sequence (R250, R269, R431). -/
def egressFlip (it : EgressItem) (flip : PipeFlip) (s : State) : State :=
  countPipeFlip (it.port / 16) flip (dropEgress it Wh.parity s)

/-- An egress mirror copy at the port it leaves by: its edited frame keeps to that port's max_frame (R152, R395, R523). -/
def copyToMac (it : EgressItem) (bs : List Byte) (s : State) : State :=
  if pipeField s (it.port / 16) (.mac it.port) 0 13 0 < bs.length + 4 then dropEgress it Wh.oversize s
  else egressToMac it { bytes := padFrame bs } 0 s

/-- One frame through an egress pipe; one of which a byte in the Press or an entry read fails parity is dropped (R250,
R269, R431). An egress mirror copy leaves with its recorded edits and runs no program (R523). -/
def egressFrame (it : EgressItem) (flip : PipeFlip) (s : State) : State :=
  let d := desc s it.desc
  if ¬ descOk s d then dropWrongDesc it.desc it.port s
  else if frameBad s d then dropEgress it Wh.parity s
  else if d.rind.version ≠ 1 then dropEgress it Wh.rindInvalid s
  else match d.edit with
    | some bs => if flip = .logic ∨ flip = .stored then egressFlip it flip s else copyToMac it bs s
    | none =>
      let bytes := frameBytes s d
      let p := it.port / 16
      let epoch := readEpoch s d.rind.epoch
      let s1 := remoteLearn p d.rind bytes s
      let x := runProgram (egressEnv s it.port d.rind) (progImage s epoch 0x0C p d.rind.egressSlot)
        (egressRegs (profileImage s epoch p d.rind.profile) it.port d.rind bytes) s1
      if flip = .logic ∨ flip = .stored then egressFlip it flip x.2
      else if x.1.parity ∨ fetchBad s 0x0C p d.rind.profile d.rind.egressSlot then dropEgress it Wh.parity x.2
      else egressResults it (bytes.take (bytes.length - 4)) x.1 x.2

/-- EGRESS_SEQUENCE: the oldest selected frame of a pipe (R157). -/
def execEgressSequence (pipe : PipeId) (flip : PipeFlip) (s : State) : Host.Outcome State Fault Refusal :=
  let x := pipeOf s pipe
  .next (if x.faulted then s
    else match x.egress with
      | [] => s
      | it :: its => egressFrame it flip (setPipe pipe { x with egress := its } s))

end Sys2Proof.Machine
end

