-- ==== Sys2Proof/Machine/Loader.lean ====
section
/-!
DEFINITION. What the loader refuses (R99, R100, R143 to R150, R423): the reason code of a Krenus-P image for a slot
of a pipe, 0 where it is accepted.
-/
namespace Sys2Proof.Machine

/-- Reasons of R100. -/
def rsFormat : Nat := 1
/-- See `rsFormat`. -/
def rsStepCount : Nat := 2
/-- See `rsFormat`. -/
def rsOpInvalid : Nat := 3
/-- See `rsFormat`. -/
def rsLateResult : Nat := 4
/-- See `rsFormat`. -/
def rsDestConflict : Nat := 5
/-- See `rsFormat`. -/
def rsRoWrite : Nat := 6
/-- See `rsFormat`. -/
def rsBudget : Nat := 7
/-- See `rsFormat`. -/
def rsTableRef : Nat := 8

/-- Whether an opcode is assigned and permitted in a direction (R97, R147). -/
def opPermitted (egress : Bool) (op : Nat) : Bool :=
  if op ≤ 0x0D ∨ (0x10 ≤ op ∧ op ≤ 0x16) ∨ op = 0x18 ∨ op = 0x19 then true
  else if op = 0x22 ∨ op = 0x25 ∨ op = 0x26 then true
  else if op = 0x20 ∨ op = 0x21 ∨ op = 0x23 ∨ op = 0x24 then !egress
  else decide (0x28 ≤ op) && decide (op ≤ 0x2C) && egress

/-- Steps from issue to result (R97); 0 for an operation that is no lookup with a result. -/
def latency : Nat → Nat
  | 0x20 => 5 | 0x21 => 5 | 0x22 => 3 | 0x23 => 8 | 0x24 => 4 | 0x25 => 2 | _ => 0

/-- Whether a code names a register (R144). -/
def isReg (c : Nat) : Bool := decide (c < 0x68)

/-- Whether an edit operation's fields are right (R150). -/
def editOk (o : POp) : Bool :=
  o.srcb == 0x7F && o.dst == 0 &&
    match o.opcode with
    | 0x28 => isReg o.srca && o.imm / 2 ^ 11 == 0
    | 0x29 => isReg o.srca && o.imm / 2 ^ 11 == 0
    | 0x2A => o.srca == 0 && o.imm / 2 ^ 16 == 0 && decide (fieldOf o.imm 15 8 ≤ 64)
    | 0x2B => o.srca == 0 && o.imm / 2 ^ 8 == 0
    | _ => o.srca == 0 && o.imm / 2 ^ 18 == 0 && decide (fieldOf o.imm 17 16 ≤ 1)

/-- Whether n field registers from a code lie in f0 to f63. -/
def fieldBlock (c n : Nat) : Bool := decide (c + n ≤ 64)

/-- Whether a lookup operation's fields are right (R149). -/
def lookupOk (o : POp) : Bool :=
  match o.opcode with
  | 0x20 => isReg o.dst && isReg o.srca && isReg o.srcb && o.imm / 2 == 0
  | 0x21 => isReg o.dst && isReg o.srca && o.imm / 2 == 0
      && fieldBlock o.srcb (if bitOf o.imm 0 then 4 else 1)
  | 0x22 => isReg o.dst && isReg o.srca && (isReg o.srcb || o.srcb == 0x7F) && (o.srcb == 0x7F || o.imm == 0)
  | 0x23 => isReg o.dst && o.srca == 0 && o.srcb == 0x7F && o.imm / 2 ^ 8 == 0
  | 0x24 => isReg o.dst && isReg o.srcb && o.imm / 4 == 0 && fieldBlock o.srca (if bitOf o.imm 0 then 10 else 4)
  | 0x25 => isReg o.dst && isReg o.srca
      && (if bitOf o.imm 30 then isReg o.srcb else o.srcb == 0x7F)
      && (if bitOf o.imm 31 then o.imm % 2 ^ 30 == 0 else o.imm % 2 ^ 30 / 2 ^ 18 == 0)
  | _ => o.dst == 0x7F && isReg o.srca && o.srcb == 0x7F
      && (if bitOf o.imm 31 then o.imm % 2 ^ 31 == 0 else o.imm / 2 ^ 21 == 0)

/-- Whether an ALU, compare or hash operation's fields are right (R143, R147, R148). -/
def aluOk (o : POp) : Bool :=
  let regB := isReg o.srcb || o.srcb == 0x7F
  let immB := o.srcb == 0x7F || o.imm == 0
  match o.opcode with
  | 0x0C => isReg o.dst && isReg o.srca && o.srcb == 0x7F && o.imm / 2 ^ 12 == 0
      && decide (fieldOf o.imm 5 0 + fieldOf o.imm 11 6 ≤ 63)
  | 0x0D => isReg o.dst && isReg o.srca && o.srcb == 0x7F && o.imm / 2 ^ 12 == 0
      && decide (fieldOf o.imm 5 0 + fieldOf o.imm 11 6 ≤ 63)
  | 0x18 => isReg o.dst && o.srcb == 0x7F && o.imm / 2 ^ 5 == 0 && decide (o.imm ≤ 16)
      && decide (o.srca < 64) && fieldBlock o.srca o.imm
  | _ => isReg o.dst && isReg o.srca && regB && immB

/-- Whether an operation's encoding is valid in a direction (R143, R144, R147 to R150). -/
def opOk (egress : Bool) (o : POp) : Bool :=
  if o.opcode = 0 then
    o.pred == 0 && !o.inv && o.dst == 0 && o.srca == 0 && o.srcb == 0 && o.resv == 0 && o.imm == 0
  else opPermitted egress o.opcode && o.resv == 0 &&
    (if o.opcode < 0x20 then aluOk o else if o.opcode < 0x28 then lookupOk o else editOk o)

/-- The register an operation writes at the end of its step (R100): none for NOP, COUNT, edits and lookups. -/
def writesNow (o : POp) : Option Nat :=
  if o.opcode = 0 ∨ 0x20 ≤ o.opcode then none else some o.dst

/-- The register a lookup's result lands in. -/
def landsIn (o : POp) : Option Nat := if latency o.opcode = 0 then none else some o.dst

/-- The operations with their steps, 1 on. -/
def stepOps (img : Nat) : List (Nat × POp) :=
  (List.range (progBundles img)).flatMap (fun k => (bundleOps img k).map (fun o => (k + 1, o)))

/-- Whether some two entries of a list stand in a relation, the earlier first. -/
def anyPair {α : Type} (r : α → α → Bool) : List α → Bool
  | [] => false
  | x :: xs => xs.any (r x) || anyPair r xs

/-- Whether two operations conflict in their destinations (R100). -/
def destClash (a b : Nat × POp) : Bool :=
  let sameStep := a.1 == b.1
  let w := fun (o : POp) => (writesNow o).or (landsIn o)
  let at_ := fun (x : Nat × POp) => x.1 + latency x.2.opcode
  let past := fun (l x : Nat × POp) =>
    (landsIn l.2).isSome && landsIn l.2 == w x.2 && decide (l.1 < at_ x) && decide (at_ x < at_ l)
  (sameStep && (w a.2).isSome && w a.2 == w b.2)
    || ((landsIn a.2).isSome && landsIn a.2 == landsIn b.2
      && a.1 + latency a.2.opcode == b.1 + latency b.2.opcode)
    || past a b || past b a

/-- How often an opcode occurs. -/
def countOp (ops : List POp) (c : Nat) : Nat := (ops.filter (fun o => o.opcode == c)).length

/-- Whether a count of R99, R151 or R423 is exceeded. -/
def overBudget (egress : Bool) (img : Nat) : Bool :=
  let ops := progOps img
  let lim := fun (c n : Nat) => decide (n < countOp ops c)
  lim 0x21 1 || lim 0x23 1 || lim 0x20 2 || lim 0x24 1 || lim 0x22 2 || lim 0x25 2 || lim 0x26 4
    || (egress && (decide (8 < (ops.filter (fun o => decide (0x28 ≤ o.opcode))).length)
      || decide (64 < insertBound img) || lim 0x2C 1))

/-- Whether an operation names a table index that does not exist (R100, R309). -/
def badRef (s : State) (epoch pipe : Nat) (o : POp) : Bool :=
  if o.opcode = 0x23 then !(treeRoot s epoch (o.imm % 256)).valid
  else if o.opcode = 0x25 ∧ ¬ bitOf o.imm 31 then decide (o.imm % 2 ^ 18 / 8192 ≠ pipe)
  else false

/-- The bytes of an image of n bytes, of its number. -/
def imageBytes (n img : Nat) : List Byte := leBytes n img

/-- Whether the header is wrong for a slot's direction (R100, R101). -/
def badFormat (egress : Bool) (n img : Nat) : Bool :=
  let h := ImgHeader.ofImage img
  decide (n < 64) || decide (448 < n) || h.magic != 0x434E524B || h.format != 1 || h.profile != 1
    || h.tier != b2n egress || h.abi != 0 || h.flags != 0 || h.entry != 0 || h.dataSize != 0 || h.zeroSize != 0
    || h.reserved != 0 || n != 64 + h.textSize || h.textSize % 32 != 0 || h.textSize == 0
    || h.crc != crc32c 0 ((imageBytes n img).take 60 ++ (imageBytes n img).drop 64)

/-- The reason for which the loader refuses an image of n bytes for a slot of a pipe, staged in the generation of
an epoch; 0 where it accepts it. The lowest reason that holds is given (R100). -/
def loaderReason (s : State) (epoch pipe : Nat) (egress : Bool) (n img : Nat) : Nat :=
  let last := if egress then 8 else 12
  let ops := stepOps img
  if badFormat egress n img then rsFormat
  else if progBundles img = 0 ∨ last < progBundles img then rsStepCount
  else if ops.any (fun o => !opOk egress o.2) then rsOpInvalid
  else if ops.any (fun o => decide (latency o.2.opcode ≠ 0) && decide (last < o.1 + latency o.2.opcode)) then
    rsLateResult
  else if anyPair destClash ops then rsDestConflict
  else if ops.any (fun o => match (writesNow o.2).or (landsIn o.2) with
    | some d => decide (0x40 ≤ d) && decide (d ≤ 0x42) || d == 0x60
    | none => false) then rsRoWrite
  else if overBudget egress img then rsBudget
  else if ops.any (fun o => badRef s epoch pipe o.2) then rsTableRef
  else 0

end Sys2Proof.Machine
end

