-- ==== Sys2Proof/Machine/TblOps.lean ====
section
/-!
DEFINITION. Operations on table entries, as TBL instructions, in-band control frames and settings records share
them (R125 to R129, R203 to R205): the gates every operation passes, the checks of each image, writes, reads,
inserts, deletes and finds, and the placements of routes (R234 to R241).
-/
namespace Sys2Proof.Machine

/-! ## Handles (R125, R126) -/

/-- Whether a type is per pipe. -/
def perPipe (type : Nat) : Bool := type == 0x0A || type == 0x0B || type == 0x0C || type == 0x0E

/-- Whether a type is keyed. -/
def keyedType (type : Nat) : Bool := type == 1 || type == 2

/-- Entries of an indexed type; 0 for types not assigned and keyed types (R126). -/
def indexCount : Nat → Nat
  | 0x03 => 4096 | 0x04 => 1048576 | 0x05 => 65536 | 0x06 => 786432 | 0x07 => 1 | 0x08 => 1 | 0x09 => 262144
  | 0x0A => 512 | 0x0B => 64 | 0x0C => 64 | 0x0D => 1048576 | 0x0E => 65536 | 0x0F => 1024 | 0x10 => 64
  | 0x11 => 1024 | _ => 0

/-- Bytes of an entry image (R126); a program's image has its own length. -/
def imageSize : Nat → Nat
  | 0x01 => 16 | 0x02 => 32 | 0x03 => 8 | 0x04 => 16 | 0x05 => 2064 | 0x06 => 64 | 0x07 => 16 | 0x08 => 16
  | 0x09 => 32 | 0x0A => 256 | 0x0D => 32 | 0x0E => 32 | 0x0F => 8 | 0x10 => 32 | 0x11 => 16 | _ => 0

/-- Whether an instance lies in its type's range; 0xFFFF where `all` allows it. -/
def instanceOk (type inst : Nat) (all : Bool) : Bool :=
  if perPipe type then decide (inst < 32) || (all && inst == 0xFFFF)
  else if type = 0x07 then decide (inst < 256)
  else if type = 0x0F then decide (inst < 512)
  else inst == 0

/-- Whether a handle names an indexed entry (R125). -/
def indexedOk (type inst idx : Nat) (all : Bool) : Bool := instanceOk type inst all && decide (idx < indexCount type)

/-- The pipes a handle's instance names: one, or for 0xFFFF every pipe whose domain is on (R487). -/
def handlePipes (s : State) (inst : Nat) : List Nat :=
  if inst = 0xFFFF then (List.range 32).filter (fun p => domainOn s (4 + p / 8)) else [inst]

/-- Whether the READY bits that govern a table are set (R487). -/
def tableReady (s : State) (type inst idx : Nat) : Bool :=
  if type ≤ 0x07 then domainOn s 8 && domainOn s 9
  else if type = 0x09 then pipeReady s (idx / 8192)
  else if perPipe type then (handlePipes s inst).all (fun p => pipeReady s p)
  else if type = 0x0F then pipeReady s (inst / 16)
  else if type = 0x10 then domainOn s 13
  else domainOn s 3

/-- NOT_READY, NOT_STAGED and BUSY, in the order of R127; none where the operation goes on. -/
def writeGate (s : State) (type inst idx : Nat) : Option Nat :=
  if ¬ tableReady s type inst idx then some rNotReady'
  else if ¬ s.epoch.shadowOpen then some rNotStaged'
  else if s.epoch.commit ≠ .none then some rBusy'
  else none
where
  /-- NOT_READY. -/
  rNotReady' : Nat := 0x0F
  /-- NOT_STAGED. -/
  rNotStaged' : Nat := 0x07
  /-- BUSY. -/
  rBusy' : Nat := 0x09

/-- The shadow generation's epoch. -/
def shadowEpoch (s : State) : Nat := s.epoch.live + 1

/-! ## Image checks -/

/-- Whether all bits [hi:lo] of an image are 0. -/
def zeroBits (v hi lo : Nat) : Bool := fieldOf v hi lo == 0

/-- Slice map image (R228). -/
def mapImageOk (v : Nat) : Bool :=
  zeroBits v 7 6 && zeroBits v 63 15
    && (if bitOf v 14 then fieldOf v 13 8 != fieldOf v 5 0 else zeroBits v 13 8)

/-- Next-hop image (R244). -/
def nextHopImageOk (v : Nat) : Bool := zeroBits v 31 23 && zeroBits v 63 56 && zeroBits v 127 64

/-- ECMP group image (R245). -/
def groupImageOk (v : Nat) : Bool :=
  zeroBits v 31 10 && zeroBits v 127 32 && decide (groupCount v ≤ 512)
    && (List.range (groupCount v)).all (fun j => zeroBits v (159 + 32 * j) (148 + 32 * j))

/-- Member words of a group, in whole chunks (R245). -/
def groupWords (v : Nat) : Nat := (groupCount v + 7) / 8 * 8

/-- Member words of a generation. -/
def memberWords (b : Bank) : Nat :=
  ((b.tbl.filter (fun p => p.1 / 2 ^ 48 == 0x05)).map (fun p => groupWords p.2)).foldl (· + ·) 0

/-- Tree node image (R185, R190). -/
def nodeImageOk (v : Nat) : Bool :=
  match v % 4 with
  | 0 => v == 0
  | 1 => decide (fieldOf v 5 2 ≤ 13) && decide (fieldOf v 10 6 + fieldOf v 13 11 + 1 ≤ 32)
      && decide (fieldOf v 51 32 ≤ 786431) && zeroBits v 31 14 && v / 2 ^ 52 == 0
  | 2 => decide (fieldOf v 6 2 ≤ 16) && decide (fieldOf v 51 32 ≤ 786431) && zeroBits v 31 7 && v / 2 ^ 53 == 0
  | _ => true

/-- Whether two roots' regions overlap. -/
def regionsOverlap (a b : TreeRoot) : Bool :=
  decide (a.regionBase < b.regionBase + b.regionCount) && decide (b.regionBase < a.regionBase + a.regionCount)

/-- Root image (R191). -/
def rootImageOk (s : State) (rs v : Nat) : Bool :=
  let r := TreeRoot.ofImage v
  if ¬ r.valid then true
  else
    decide (1 ≤ r.keyRegs) && decide (r.keyRegs ≤ 14) && decide (r.keyBase + r.keyRegs ≤ 64)
      && decide (r.regionBase + r.regionCount ≤ 786432) && r.covers r.rootNode
      && (List.range 256).all (fun k =>
        k == rs || !(treeRoot s (shadowEpoch s) k).valid || !regionsOverlap r (treeRoot s (shadowEpoch s) k))

/-- Fragment default rule image (R200). -/
def fragImageOk (v : Nat) : Bool := zeroBits v 63 33 && zeroBits v 127 64

/-- Policer image (R309). -/
def policerImageOk (v : Nat) : Bool :=
  zeroBits v 31 4 && decide (fieldOf v 63 32 ≤ 1600000000) && decide (fieldOf v 95 64 ≤ 1600000000)
    && zeroBits v 127 124 && zeroBits v 159 156 && v / 2 ^ 160 == 0
    && (bitOf v 1 || (decide (fieldOf v 63 32 ≤ fieldOf v 95 64) && !bitOf v 3))

/-- Parse profile image (R160, R166). -/
def profileImageOk (v : Nat) : Bool :=
  zeroBits v 3 1 && zeroBits v 63 26 && decide (fieldOf v 25 24 ≤ 1) && zeroBits v 127 112 && zeroBits v 255 128
    && (List.range 48).all (fun i =>
      let e := fieldOf v (8 * (160 + 2 * i) + 15) (8 * (160 + 2 * i))
      !bitOf v (64 + i) || decide (e / 32 + e % 32 + 1 ≤ 2048))

/-- Queue configuration image (R282, R283). -/
def queueImageOk (v : Nat) : Bool :=
  zeroBits v 3 2 && zeroBits v 31 29 && zeroBits v 63 61 && zeroBits v 95 88 && zeroBits v 127 120
    && zeroBits v 135 135 && zeroBits v 159 143 && zeroBits v 191 181 && zeroBits v 223 215 && v / 2 ^ 224 == 0
    && decide (fieldOf v 134 128 ≤ 100) && decide (fieldOf v 142 136 ≤ 100)
    && (v % 4 != 2 || (decide (fieldOf v 180 160 ≤ 1600000) && decide (64 ≤ fieldOf v 52 32)
      && decide (fieldOf v 52 32 ≤ 1048576)))

/-- Whether another queue holds an egress image's place in the shadow generation (R283). -/
def queueClash (s : State) (q v : Nat) : Bool :=
  v % 4 == 2 && (bankOf s (shadowEpoch s)).tbl.any (fun p =>
    p.1 / 2 ^ 48 == 0x0D && p.1 % 2 ^ 32 != q && p.2 % 4 == 2 && fieldOf p.2 28 4 == fieldOf v 28 4)

/-- Scheduler node image (R304). -/
def schedImageOk (v : Nat) : Bool :=
  decide (fieldOf v 3 1 ≤ 4) && (!bitOf v 0 || fieldOf v 19 4 != 0) && zeroBits v 31 21 && zeroBits v 63 53
    && decide (fieldOf v 52 32 ≤ 1600000) && zeroBits v 95 87 && v / 2 ^ 96 == 0

/-- Gate list entry image (R312). -/
def gateImageOk (v : Nat) : Bool :=
  zeroBits v 31 16 && zeroBits v 63 62 && decide (1 ≤ fieldOf v 61 32) && decide (fieldOf v 61 32 ≤ 1000000000)

/-- Mirror session image (R522). -/
def mirrorImageOk (v : Nat) : Bool :=
  zeroBits v 31 3 && decide (fieldOf v 2 1 ≤ 2) && zeroBits v 63 52 && zeroBits v 95 78 && zeroBits v 127 112
    && v / 2 ^ 128 == 0 && (fieldOf v 77 64 == 0 || decide (64 ≤ fieldOf v 77 64))
    && (!bitOf v 0 || fieldOf v 111 96 != 0)

/-- Unit route image (R331). -/
def unitRouteOk (s : State) (d v : Nat) : Bool := !(s.roll.numbered && d == s.roll.unit) || v == 0

/-! ## The slice map and placements (R227, R228, R236 to R240) -/

/-- Whether two routes have one key. -/
def sameKey (a b : Route) : Bool := a.vrf == b.vrf && a.v6 == b.v6 && a.length == b.length && a.addr == b.addr

/-- The map indexes a route's prefix covers (R227, R228). -/
def coveredIndexes (s : State) (r : Route) : List Nat :=
  let n := 11 - vrfBits s r.v6
  let first := mapIndex s r.v6 r.vrf r.addr
  if n ≤ r.length then [first] else (List.range (2 ^ (n - r.length))).map (fun i => first + i)

/-- The slices that must hold a route under the map of a generation. -/
def routeSlices (s : State) (epoch : Nat) (r : Route) : List Nat :=
  ((coveredIndexes s r).flatMap (fun i => entrySlices (tblGet s epoch 0x03 0 i))).eraseDups

/-- Both shuffler queues. -/
def allPlacements (s : State) : List Placement := s.routes.queue0 ++ s.routes.queue1

/-- Whether a slice holds a row of a route, in any generation. -/
def sliceHas (s : State) (n : Nat) (r : Route) : Bool := (sliceRoutes s n).any (sameKey r)

/-- Whether a placement of a route into a slice is queued. -/
def placementQueued (s : State) (n : Nat) (r : Route) : Bool :=
  (allPlacements s).any (fun p => p.slice == n && sameKey r p.route)

/-- Rows of a slice that are valid in any bank. -/
def sliceRows (s : State) (n : Nat) : Nat := rowsIn (sliceRoutes s n)

/-- Rows of a slice reserved for queued placements. -/
def reservedRows (s : State) (n : Nat) : Nat :=
  (((allPlacements s).filter (fun p => p.slice == n && !sliceHas s n p.route)).map
    (fun p => rowsOf p.route.v6 p.route.length)).foldl (· + ·) 0

/-- Whether a slice has free rows for a route. -/
def sliceRoom (s : State) (r : Route) (n : Nat) : Bool :=
  decide (sliceRows s n + reservedRows s n + rowsOf r.v6 r.length ≤ 40960)

/-- A route's result in the generation of an epoch replaced. -/
def Route.withResult (r : Route) (epoch : Nat) (v : Option Nat) : Route :=
  if epoch % 2 = 0 then { r with r0 := v } else { r with r1 := v }

/-- Set a route's result in a slice, where the slice has its row. -/
def setSliceResult (epoch : Nat) (v : Option Nat) (r : Route) (s : State) (n : Nat) : State :=
  { s with routes := { s.routes with
      slices := mset [] s.routes.slices n
        ((sliceRoutes s n).map (fun x => if sameKey r x then x.withResult epoch v else x)) } }

/-- Set a route's result in queued placements. -/
def setQueuedResult (epoch v : Nat) (r : Route) (s : State) : State :=
  let f := fun (p : Placement) => if sameKey r p.route then { p with route := p.route.withResult epoch (some v) } else p
  { s with routes := { s.routes with
      queue0 := s.routes.queue0.map f
      queue1 := s.routes.queue1.map f } }

/-- Queue a placement at its slice's shuffler. -/
def queuePlacement (r : Route) (s : State) (n : Nat) : State :=
  let p : Placement := { slice := n, route := r }
  if n < 32 then { s with routes := { s.routes with queue0 := s.routes.queue0 ++ [p] } }
  else { s with routes := { s.routes with queue1 := s.routes.queue1 ++ [p] } }

/-- Whether both shuffler queues can take placements into slices (R238). -/
def queuesTake (s : State) (ns : List Nat) : Bool :=
  decide (s.routes.queue0.length + (ns.filter (fun n => decide (n < 32))).length ≤ 4096)
    && decide (s.routes.queue1.length + (ns.filter (fun n => decide (32 ≤ n))).length ≤ 4096)

/-- A route's key and result from its image's bytes (R234). -/
def routeOfImage (bs : List Byte) : Route × Nat :=
  let w := leAt bs 0 4
  ({ vrf := fieldOf w 13 0, v6 := bitOf w 14, length := fieldOf w 23 16
     addr := if bitOf w 14 then beAt bs 16 16 else beAt bs 16 4 },
   leAt bs 4 8)

/-- Whether a route's key fields are right: all that a delete or a find reads (R234). -/
def routeKeyOk (bs : List Byte) : Bool :=
  let r := (routeOfImage bs).1
  let bits := addrBits r.v6
  decide (r.length ≤ bits) && r.addr % 2 ^ (bits - r.length) == 0

/-- Whether a route image is right (R234). -/
def routeImageOk (bs : List Byte) : Bool :=
  let w := leAt bs 0 4
  routeKeyOk bs && !bitOf w 15 && w / 2 ^ 24 == 0 && (bitOf w 14 || beAt bs 20 12 == 0) && leAt bs 4 4 / 2 ^ 23 == 0 && leAt bs 8 4 / 2 ^ 11 == 0 && leAt bs 12 4 == 0

/-- TBL.INS of a route (R238): the result code and the state. -/
def routeInsert (bs : List Byte) (s : State) : Nat × State :=
  let x := routeOfImage bs
  let r := x.1
  let y := shadowEpoch s
  let slices := routeSlices s y r
  let fresh := slices.filter (fun n => !sliceHas s n r && !placementQueued s n r)
  if ¬ routeImageOk bs then (0x0A, s)
  else if fresh.any (fun n => !sliceRoom s r n) then (0x06, s)
  else if ¬ queuesTake s fresh then (0x09, s)
  else
    let s1 := setQueuedResult y x.2 r s
    let s2 := slices.foldl (setSliceResult y (some x.2) r) s1
    (0x00, fresh.foldl (queuePlacement (r.withResult y (some x.2))) s2)

/-- The result of a route in a generation, from any slice that holds it. -/
def routeFind (s : State) (epoch : Nat) (r : Route) : Option Nat :=
  match (List.range 64).find? (fun n => (sliceRoutes s n).any (fun x => sameKey r x && (x.result epoch).isSome)) with
  | none => none
  | some n => ((sliceRoutes s n).find? (fun x => sameKey r x && (x.result epoch).isSome)).bind (fun x => x.result epoch)

/-- TBL.DEL of a route (R238). -/
def routeDelete (bs : List Byte) (s : State) : Nat × State :=
  let r := (routeOfImage bs).1
  let y := shadowEpoch s
  let queued := (allPlacements s).any (fun p => sameKey r p.route)
  if ¬ routeKeyOk bs then (0x0A, s)
  else if (routeFind s y r).isNone ∧ ¬ queued then (0x05, s)
  else
    let keep := fun (p : Placement) => !sameKey r p.route
    let s1 := { s with routes := { s.routes with
      queue0 := s.routes.queue0.filter keep
      queue1 := s.routes.queue1.filter keep } }
    (0x00, (List.range 64).foldl (setSliceResult y none r) s1)

/-- Every route of a list, each key once. -/
def distinctRoutes (rs : List Route) : List Route :=
  rs.foldl (fun acc r => if acc.any (sameKey r) then acc else r :: acc) []

/-- Every route that some slice holds in a generation, each key once. -/
def routesOf (s : State) (epoch : Nat) : List Route :=
  distinctRoutes (s.routes.slices.flatMap (fun p => p.2.filter (fun r => (r.result epoch).isSome)))

/-- Every route of the shadow generation, those whose placements are still queued with them (R238, R240). -/
def shadowRoutes (s : State) : List Route :=
  distinctRoutes (((s.routes.slices.flatMap (fun p => p.2)) ++ (allPlacements s).map (fun p => p.route)).filter
    (fun r => (r.result (shadowEpoch s)).isSome))

/-- Queued placements of routes that the new map no longer puts into their slice leave the queues (R240). -/
def keepPlacements (moved : List Route) (slices : Route → List Nat) (s : State) : State :=
  let keep := fun (p : Placement) => !(moved.any (sameKey p.route)) || (slices p.route).contains p.slice
  { s with routes := { s.routes with
    queue0 := s.routes.queue0.filter keep
    queue1 := s.routes.queue1.filter keep } }

/-- TBL.WR of a slice map entry: every route under it, placed or queued, migrates (R240). -/
def mapWrite (idx img : Nat) (s : State) : Nat × State :=
  let y := shadowEpoch s
  let s1 := tblPut y 0x03 0 idx img s
  let moved := (shadowRoutes s).filter (fun r => (coveredIndexes s r).contains idx)
  let need := moved.flatMap (fun r => ((routeSlices s1 y r).filter
    (fun n => !sliceHas s n r && !placementQueued s n r)).map (fun n => (r, n)))
  let fits := (List.range 64).all (fun n =>
    decide (sliceRows s n + reservedRows s n
      + ((need.filter (fun p => p.2 == n)).map (fun p => rowsOf p.1.v6 p.1.length)).foldl (· + ·) 0 ≤ 40960))
  if ¬ mapImageOk img ∨ ¬ fits then (0x0A, s)
  else if ¬ queuesTake s (need.map (fun p => p.2)) then (0x09, s)
  else
    let s2 := need.foldl (fun t p => queuePlacement
      (({ p.1 with r0 := none, r1 := none } : Route).withResult y (p.1.result y)) t p.2)
      (keepPlacements moved (routeSlices s1 y) s1)
    (0x00, moved.foldl (fun t r => (List.range 64).foldl (fun t n =>
      setSliceResult y (if (routeSlices s1 y r).contains n then r.result y else none) r t n) t) s2)

/-! ## Indexed entries -/

/-- Whether a tree entry lies in the region of a live root, or of a root whose pipes have not all cut over
(R190). -/
def nodeBusy (s : State) (n : Nat) : Bool :=
  let covers := fun (epoch : Nat) => (List.range 256).any (fun rs =>
    (treeRoot s epoch rs).valid && (treeRoot s epoch rs).covers n)
  covers s.epoch.live || (match s.epoch.commit with
    | .cutting _ => covers (s.epoch.live + 65535)
    | _ => false)

/-- Raise PROFILE_REJECTED (R166). -/
def profileRejected (inst idx : Nat) (s : State) : State :=
  let p := if inst = 0xFFFF then 0 else inst
  raise (.pipe p) Ev.profileRejected (idx + p * 2 ^ 9 + b2n (inst == 0xFFFF) * 2 ^ 14) s

/-- Store an image in the shadow generation of a per-pipe entry: for 0xFFFF in every pipe, the switched-off ones
through their shadows (R487). -/
def storePipes (type inst idx img : Nat) (s : State) : State :=
  if inst = 0xFFFF then (List.range 32).foldl (fun t p => tblPut (shadowEpoch s) type p idx img t) s
  else tblPut (shadowEpoch s) type inst idx img s

/-- The check an image must pass to be stored. -/
def imageOk (s : State) (type inst idx img : Nat) : Bool :=
  match type with
  | 0x04 => nextHopImageOk img
  | 0x05 => groupImageOk img
  | 0x06 => nodeImageOk img
  | 0x07 => rootImageOk s inst img
  | 0x08 => fragImageOk img
  | 0x09 => policerImageOk img
  | 0x0A => profileImageOk img
  | 0x0D => queueImageOk img
  | 0x0E => schedImageOk img
  | 0x0F => gateImageOk img
  | 0x10 => mirrorImageOk img
  | 0x11 => unitRouteOk s idx img
  | _ => false

/-- A write of an entry ends its loss (R433). -/
def endLosses (type inst idx : Nat) (s : State) : State :=
  if inst = 0xFFFF then
    let keep := fun (k : Nat) => !(k / 2 ^ 48 == type && k % 2 ^ 32 == idx)
    { s with lostEntries := s.lostEntries.filter keep, badEntries := s.badEntries.filter keep }
  else endLoss (tblKey type inst idx) s

/-- An entry image that passed the gates is checked and stored: the result code and the state. -/
def storeEntry (type inst idx img : Nat) (s : State) : Nat × State :=
  let y := shadowEpoch s
  if type = 0x03 then mapWrite idx img s
  else if ¬ imageOk s type inst idx img then
    (0x0A, if type = 0x0A then profileRejected inst idx s else s)
  else if type = 0x05 then
    let stored := img % 2 ^ (128 + 32 * groupCount img)
    let words := memberWords (bankOf s y) - groupWords (tblGet s y 0x05 0 idx) + groupWords stored
    if 1048576 < words then (0x0A, s) else (0x00, tblPut y 0x05 0 idx stored s)
  else if type = 0x06 then
    if nodeBusy s idx then (0x09, s)
    else (0x00, { s with tree := { s.tree with nodes := mset 0 s.tree.nodes idx img } })
  else if type = 0x0D ∧ queueClash s idx img then (0x0C, s)
  else if perPipe type then (0x00, storePipes type inst idx img s)
  else (0x00, tblPut y type inst idx img s)

/-- TBL.WR of an entry image that passed the gates: the result code and the state. -/
def tblWrite (type inst idx img : Nat) (s : State) : Nat × State :=
  let r := storeEntry type inst idx img s
  if r.1 = 0 then (r.1, endLosses type inst idx r.2) else r

/-- TBL.PROG of an image of n bytes that passed the gates: the result code, the value, the state (R100, R103). -/
def tblProgram (type inst idx n img : Nat) (s : State) : Nat × Nat × State :=
  let egress := type == 0x0C
  let pipes := if inst = 0xFFFF then List.range 32 else [inst]
  match pipes.find? (fun p => loaderReason s (shadowEpoch s) p egress n img ≠ 0) with
  | none => (0x00, 0, endLosses type inst idx (storePipes type inst idx img s))
  | some p =>
    let r := loaderReason s (shadowEpoch s) p egress n img
    (0x0C, r, raise (.pipe p) Ev.progRejected
      (r + idx * 2 ^ 4 + b2n egress * 2 ^ 10 + p * 2 ^ 11 + b2n (inst == 0xFFFF) * 2 ^ 16) s)

/-- Bytes of the image that a read of an entry gives: a program's header and text (R101, R126). -/
def readSize (s : State) (epoch type inst idx : Nat) : Nat :=
  if type = 0x0B ∨ type = 0x0C then 64 + fieldOf (tblGet s epoch type inst idx) 159 128 else imageSize type

/-- The image a read of an indexed entry gives; tree memory has one copy (R190). -/
def readImage (s : State) (epoch type inst idx : Nat) : Nat :=
  if type = 0x06 then treeNode s idx else tblGet s epoch type inst idx

/-! ## Layer-2 static entries (R207, R213) -/

/-- An entry's contents in the generation of an epoch replaced. -/
def L2Entry.withData (e : L2Entry) (epoch : Nat) (d : Option L2Data) : L2Entry :=
  if epoch % 2 = 0 then { e with c0 := d } else { e with c1 := d }

/-- The key of a layer-2 image. -/
def l2ImageKey (v : Nat) : Nat := l2Key (fieldOf v 61 48) (fieldOf v 31 0 * 2 ^ 16 + fieldOf v 47 32)

/-- TBL.INS of a static entry (R213). -/
def l2StaticInsert (img : Nat) (s : State) : Nat × State :=
  let y := shadowEpoch s
  let key := l2ImageKey img
  let d : L2Data :=
    { unit := fieldOf img 73 64, port := fieldOf img 82 74, discardDst := bitOf img 83, discardSrc := bitOf img 84
      fixed := true }
  if ¬ (zeroBits img 63 62 && zeroBits img 127 85) then (0x0A, s)
  else match l2Find s key with
    | some p => (0x00, setL2 (mput s.l2.entries p.1 (p.2.withData y (some d))) s)
    | none =>
      if (l2Place s key).isNone then (0x06, s)
      else (0x00, l2Insert (({ key := key } : L2Entry).withData y (some d)) s)

/-- TBL.DEL of a static entry (R213). -/
def l2StaticDelete (img : Nat) (s : State) : Nat × State :=
  let y := shadowEpoch s
  match l2Find s (l2ImageKey img) with
  | none => (0x05, s)
  | some p => match p.2.data y with
    | none => (0x05, s)
    | some d =>
      if d.fixed then (0x00, setL2 (mput s.l2.entries p.1 (p.2.withData y none)) s) else (0x05, s)

/-- The image that TBL.FIND gives of a layer-2 entry (R207). -/
def l2FindImage (s : State) (img : Nat) : Option Nat :=
  match l2Find s (l2ImageKey img) with
  | none => none
  | some p => (p.2.data s.epoch.live).map (fun d =>
      p.2.key % 2 ^ 48 / 2 ^ 16 + p.2.key % 2 ^ 16 * 2 ^ 32 + p.2.key / 2 ^ 48 * 2 ^ 48 + d.unit * 2 ^ 64
        + d.port * 2 ^ 74 + b2n d.discardDst * 2 ^ 83 + b2n d.discardSrc * 2 ^ 84 + b2n (!d.fixed) * 2 ^ 96
        + b2n p.2.hit * 2 ^ 97 + p.2.idle * 2 ^ 98)

/-- The image that TBL.FIND gives of a route (R234). -/
def routeFindImage (s : State) (bs : List Byte) : Option Nat :=
  let r := (routeOfImage bs).1
  (routeFind s s.epoch.live r).map (fun v =>
    r.vrf + b2n r.v6 * 2 ^ 14 + r.length * 2 ^ 16 + v * 2 ^ 32
      + leNat ((bs.drop 16).take (if r.v6 then 16 else 4)) * 2 ^ 128)

/-- TBL.INS of a keyed type. -/
def keyedInsert (type : Nat) (bs : List Byte) (s : State) : Nat × State :=
  if type = 1 then l2StaticInsert (leNat bs) s else routeInsert bs s

/-- TBL.DEL of a keyed type. -/
def keyedDelete (type : Nat) (bs : List Byte) (s : State) : Nat × State :=
  if type = 1 then l2StaticDelete (leNat bs) s else routeDelete bs s

/-- TBL.FIND of a keyed type. -/
def keyedFind (s : State) (type : Nat) (bs : List Byte) : Option Nat :=
  if type = 1 then l2FindImage s (leNat bs) else routeFindImage s bs

end Sys2Proof.Machine
end

