-- ==== Sys2Proof/Machine/TblCmd.lean ====
section
/-!
DEFINITION. The TBL group and REHASH (R125 to R129), the learner, the Turner, rehashes and flushes of the layer-2
table (R209 to R222), the shufflers and the scrubber (R236 to R241, R251).
-/
namespace Sys2Proof.Machine

/-! ## The gates of a table operation (R127) -/

/-- The operations of R127. -/
inductive TblOp where
  | wr
  /-- A read of the live (false) or the shadow generation. -/
  | rd (shadow : Bool)
  | ins | del | find | prog
deriving DecidableEq, Repr

/-- A handle's type, instance and index (R125). -/
def hType (h : Nat) : Nat := fieldOf h 63 56
/-- See `hType`. -/
def hInst (h : Nat) : Nat := fieldOf h 47 32
/-- See `hType`. -/
def hIndex (h : Nat) : Nat := fieldOf h 31 0

/-- Whether a type is a program slot. -/
def programType (type : Nat) : Bool := type == 0x0B || type == 0x0C

/-- Whether a handle is one an operation takes (R125 to R127). -/
def handleFits (op : TblOp) (h : Nat) : Bool :=
  let t := hType h
  fieldOf h 55 48 == 0 && match op with
    | .wr => !programType t && indexedOk t (hInst h) (hIndex h) true
    | .prog => programType t && indexedOk t (hInst h) (hIndex h) true
    | .rd _ => indexedOk t (hInst h) (hIndex h) false
    | _ => keyedType t && hInst h == 0 && hIndex h == 0

/-- Steps 1 to 4 of R127: the code that ends an operation, if one does. -/
def tblGate (s : State) (op : TblOp) (h : Nat) : Option Nat :=
  if ¬ handleFits op h then some rRange
  else match op with
    | .rd shadow =>
      if ¬ tableReady s (hType h) (hInst h) (hIndex h) then some rNotReady
      else if shadow ∧ ¬ s.epoch.shadowOpen then some rNotStaged
      else none
    | .find => if tableReady s (hType h) (hInst h) (hIndex h) then none else some rNotReady
    | _ => writeGate s (hType h) (hInst h) (hIndex h)

/-- The code of a memory operand's trap, if one is taken. -/
def memTrap (s : State) (e : Nat) (r : Right) (a n : Nat) (k : DevOut) : DevOut :=
  match spanFault s e r a n with
  | some f => .trap f.1 f.2
  | none => k

/-- A result of a table operation with no value. -/
def tblDone (r : Nat × State) : DevOut := .done (result r.1 0) r.2

/-! ## The TBL group -/

/-- TBL.WR's operation: handle h, image at a. -/
def tblWrOp (e h a : Nat) (s : State) : DevOut :=
  match tblGate s .wr h with
  | some c => .done (result c 0) s
  | none =>
    let n := imageSize (hType h)
    memTrap s e .read a n (tblDone (tblWrite (hType h) (hInst h) (hIndex h) (leNat (loadBytes s e a n)) s))

/-- TBL.WR kd, ka, kb (R127). -/
def execTblWr (e : EngineId) (kd ka kb : KReg) (s : State) : Host.Outcome State Fault Refusal :=
  .next (runDev e .tbl (encDev 0x24 0 kd ka kb 0) kd (fun s => tblWrOp e (kget s e ka).toNat (kget s e kb).toNat s) s)

/-- TBL.RD's operation: handle h, memory at a, generation c. -/
def tblRdOp (e h a c : Nat) (s : State) : DevOut :=
  let shadow := bitOf c 0
  if 2 ≤ c then .done (result rRange 0) s
  else match tblGate s (.rd shadow) h with
    | some r => .done (result r 0) s
    | none =>
      let y := if shadow then shadowEpoch s else s.epoch.live
      let n := readSize s y (hType h) (hInst h) (hIndex h)
      memTrap s e .write a n
        (.done (result rOk 0) (storeBytes e a (leBytes n (readImage s y (hType h) (hInst h) (hIndex h))) s))

/-- TBL.RD kd, ka, kb, kc (R127). -/
def execTblRd (e : EngineId) (kd ka kb kc : KReg) (s : State) : Host.Outcome State Fault Refusal :=
  .next (runDev e .tbl (encDev 0x24 1 kd ka kb kc) kd
    (fun s => tblRdOp e (kget s e ka).toNat (kget s e kb).toNat (kget s e kc).toNat s) s)

/-- TBL.INS's operation. -/
def tblInsOp (e h a : Nat) (s : State) : DevOut :=
  match tblGate s .ins h with
  | some c => .done (result c 0) s
  | none =>
    let n := imageSize (hType h)
    memTrap s e .read a n (tblDone (keyedInsert (hType h) (loadBytes s e a n) s))

/-- TBL.INS kd, ka, kb (R127, R213, R238). -/
def execTblIns (e : EngineId) (kd ka kb : KReg) (s : State) : Host.Outcome State Fault Refusal :=
  .next (runDev e .tbl (encDev 0x24 2 kd ka kb 0) kd
    (fun s => tblInsOp e (kget s e ka).toNat (kget s e kb).toNat s) s)

/-- TBL.DEL's operation. -/
def tblDelOp (e h a : Nat) (s : State) : DevOut :=
  match tblGate s .del h with
  | some c => .done (result c 0) s
  | none =>
    let n := imageSize (hType h)
    memTrap s e .read a n (tblDone (keyedDelete (hType h) (loadBytes s e a n) s))

/-- TBL.DEL kd, ka, kb (R127, R213, R238). -/
def execTblDel (e : EngineId) (kd ka kb : KReg) (s : State) : Host.Outcome State Fault Refusal :=
  .next (runDev e .tbl (encDev 0x24 3 kd ka kb 0) kd
    (fun s => tblDelOp e (kget s e ka).toNat (kget s e kb).toNat s) s)

/-- TBL.FIND's operation: key at a, image to d. -/
def tblFindOp (e h a d : Nat) (s : State) : DevOut :=
  match tblGate s .find h with
  | some c => .done (result c 0) s
  | none =>
    let n := imageSize (hType h)
    memTrap s e .read a n (memTrap s e .write d n
      (if hType h = 2 ∧ ¬ routeKeyOk (loadBytes s e a n) then .done (result rRange 0) s
      else match keyedFind s (hType h) (loadBytes s e a n) with
        | none => .done (result rNotFound 0) s
        | some v => .done (result rOk 0) (storeBytes e d (leBytes n v) s)))

/-- TBL.FIND kd, ka, kb, kc (R127, R213). -/
def execTblFind (e : EngineId) (kd ka kb kc : KReg) (s : State) : Host.Outcome State Fault Refusal :=
  .next (runDev e .tbl (encDev 0x24 4 kd ka kb kc) kd
    (fun s => tblFindOp e (kget s e ka).toNat (kget s e kb).toNat (kget s e kc).toNat s) s)

/-- TBL.PROG's operation: image of n bytes at a. -/
def tblProgOp (e h a n : Nat) (s : State) : DevOut :=
  if 65536 ≤ n then .done (result rRange 0) s
  else match tblGate s .prog h with
    | some c => .done (result c 0) s
    | none =>
      if n = 0 then .done (result rNone 0) s
      else memTrap s e .read a n
        (let r := tblProgram (hType h) (hInst h) (hIndex h) n (leNat (loadBytes s e a n)) s
         .done (result r.1 r.2.1) r.2.2)

/-- TBL.PROG kd, ka, kb, kc (R100, R127). -/
def execTblProg (e : EngineId) (kd ka kb kc : KReg) (s : State) : Host.Outcome State Fault Refusal :=
  .next (runDev e .tbl (encDev 0x24 5 kd ka kb kc) kd
    (fun s => tblProgOp e (kget s e ka).toNat (kget s e kb).toNat (kget s e kc).toNat s) s)

/-! ## Rehash (R129, R215, R216) -/

/-- Start a rehash of a bank under a seed. -/
def startRehash (bank seed : Nat) (s : State) : State :=
  { s with l2 := { s.l2 with
      oldSeed := mset 0 s.l2.oldSeed bank (mget 0 s.l2.seed bank)
      seed := mset 0 s.l2.seed bank seed
      rehash := mset 0 s.l2.rehash bank 1 } }

/-- REHASH kd, ka, kb (R129); a seed of 0 draws one from the unit's entropy source, a free value. -/
def execRehash (e : EngineId) (kd ka kb : KReg) (s : State) : Host.Outcome State Fault Refusal :=
  .next (runDev e .tbl (encDev 0x25 0 kd ka kb 0) kd (fun s =>
    let bank := (kget s e ka).toNat
    let seed := (kget s e kb).toNat
    if 2 ≤ bank ∨ 2 ^ 32 ≤ seed then .done (result rRange 0) s
    else if mget 0 s.l2.rehash bank = 1 then .done (result rBusy 0) s
    else if seed = 0 then
      .done (result rPending 0) (startRehash bank ((freeDraw s).1.toNat % 2 ^ 32) (freeDraw s).2)
    else .done (result rPending 0) (startRehash bank seed s)) s)

/-- Move one entry of a rehashing bank to its bucket under the new seed, or to the other bank; none halts. -/
def rehashMove (bank place : Nat) (s : State) : Option State :=
  match s.l2.entries.find? (fun p => p.1 == place) with
  | none => some s
  | some p =>
    let e := p.2
    let b := l2Bucket s bank e.key
    if (place - bank * 1048576) / 8 = b then some s
    else
      let go := fun (q : Nat) => some (setL2 (mput (mdel s.l2.entries place) q e) s)
      match l2FreeOf s (l2Ways bank b) with
      | q :: _ => go q
      | [] =>
        let o := 1 - bank
        match l2FreeOf s (l2Ways o (l2Bucket s o e.key)) with
        | q :: _ => go q
        | [] =>
          if e.isStatic then none
          else some { s with l2 := { s.l2 with
            entries := mdel s.l2.entries place
            rehashDrops := (s.l2.rehashDrops + 1) % 2 ^ 32 } }

/-- The visit of a bank's places in order: the entries left when it halts, and the state. -/
def rehashVisit (bank : Nat) : List Nat → State → Nat × State
  | [], s => (0, s)
  | p :: ps, s =>
    match rehashMove bank p s with
    | some s1 => rehashVisit bank ps s1
    | none => (ps.length + 1, s)

/-- REHASH_DONE: the rehash of a bank has visited every old bucket, or halts at a static entry (R215, R216). -/
def execRehashDone (bank : Fin 2) (s : State) : Host.Outcome State Fault Refusal :=
  .next (if mget 0 s.l2.rehash bank.val = 1 then
      let places := (s.l2.entries.filter (fun p => p.1 / 1048576 == bank.val)).map (fun p => p.1)
      let r := rehashVisit bank.val places s
      let seed := mget 0 s.l2.seed bank.val
      if r.1 = 0 then
        raiseAt (blockPlace (.l2b bank.val)) Ev.rehashDone bank.val seed
          { r.2 with l2 := { r.2.l2 with
              oldSeed := mset 0 r.2.l2.oldSeed bank.val 0
              rehash := mset 0 r.2.l2.rehash bank.val 0 } }
      else
        raiseAt (blockPlace (.l2b bank.val)) Ev.rehashDone (bank.val + 2 + r.1 * 4) seed
          { r.2 with l2 := { r.2.l2 with rehash := mset 0 r.2.l2.rehash bank.val 2 } }
    else s)

/-! ## Learner, Turner, flush -/

/-- Apply a learn or a move of a key (R209, R211, R212). A key that only the bank of the previous epoch holds keeps its way,
and the learned entry is present in the live bank (R205; notes/assumptions 142). -/
def applyLearn (key unit port : Nat) (s : State) : State :=
  let d : L2Data := { unit := unit, port := port }
  match l2Find s key with
  | some p =>
    if (p.2.data s.epoch.live).isNone ∧ ¬ s.epoch.shadowOpen then
      setL2 (mput s.l2.entries p.1 { p.2.withData s.epoch.live (some d) with hit := true, idle := 0 }) s
    else if p.2.isStatic then s
    else setL2 (mput s.l2.entries p.1 { p.2 with c0 := some d, c1 := some d, hit := true }) s
  | none => l2Insert { key := key, c0 := some d, c1 := some d, hit := true } s

/-- LEARN_APPLY: the oldest queued learn (R211). -/
def execLearnApply (s : State) : Host.Outcome State Fault Refusal :=
  .next (match s.l2.learns with
    | [] => s
    | l :: ls => applyLearn l.1 l.2.1 l.2.2 { s with l2 := { s.l2 with learns := ls } })

/-- The half ageing time of ageing_time in ps: T ÷ 2, or 150 s where T is 0 (R217, R219). -/
def turnerHalf (s : State) : Nat :=
  let t := rwlField s .turner 0 19 0
  if t = 0 then 150 * psSec else t * psSec / 2

/-- The entry index that the sweep is visiting (R217, R224). -/
def turnerPosition (s : State) : Nat := min 2097151 ((s.now - s.l2.sweepFrom) * 2097152 / s.l2.sweepHalf)

/-- The clock of the sweep in progress in which it visits a place: the first of the place's slot (R217). -/
def visitAt (s : State) (place : Nat) : Nat :=
  s.l2.sweepFrom + (place * s.l2.sweepHalf + 2097151) / 2097152

/-- Whether this core clock is the one in which the sweep visits a place. -/
def visitsNow (s : State) (place : Nat) : Bool :=
  decide (visitAt s place ≤ s.now) && decide (s.now < visitAt s place + 625)

/-- The mark of the sweep in progress. -/
def sweepMark (s : State) : Nat × Nat := (s.l2.sweepHalf, s.l2.sweepFrom + 1)

/-- The sweep visits a place: a dynamic entry present in some bank is aged, once in a sweep (R205, R217, R218). -/
def visitPlace (place : Nat) (s : State) : State :=
  match s.l2.entries.find? (fun p => p.1 == place) with
  | none => s
  | some p =>
    let e := p.2
    if e.isStatic ∨ (e.c0.isNone ∧ e.c1.isNone) ∨ e.mark = sweepMark s then s
    else if e.hit then setL2 (mput s.l2.entries place { e with hit := false, idle := 0, mark := sweepMark s }) s
    else
      let idle := min 255 (e.idle + 1)
      if 2 ≤ idle ∧ rwlField s .turner 0 19 0 ≠ 0 then
        { s with l2 := { s.l2 with
            entries := mdel s.l2.entries place
            removed := (s.l2.removed + 1) % 2 ^ 32 } }
      else setL2 (mput s.l2.entries place { e with idle := idle, mark := sweepMark s }) s

/-- TURNER_VISIT: the sweep reaches an entry at its fixed phase (R217, R218); arrivals of the clock that still wait come
first (R55). -/
def execTurnerVisit (bank : Fin 2) (bucket : Fin 131072) (way : Fin 8) (s : State) :
    Host.Outcome State Fault Refusal :=
  let place := bank.val * 1048576 + bucket.val * 8 + way.val
  .next (if visitsNow s place ∧ ¬ arrivalsWait s then visitPlace place s else s)

/-- The places of a list that the sweep visits in this clock, each visited. -/
def visitDue : List Nat → State → State
  | [], s => s
  | p :: ps, s => visitDue ps (if visitsNow s p then visitPlace p s else s)

/-- What the Turner does at the end of a core clock: it visits the entries due, and a sweep that ends is followed by one
under the ageing time then in force (R217, R219; notes/assumptions 144). -/
def turnerClock (s : State) : State :=
  let s1 := visitDue (s.l2.entries.map (fun p => p.1)) s
  if s1.l2.sweepFrom + s1.l2.sweepHalf ≤ s1.now + 625 then
    { s1 with l2 := { s1.l2 with
      sweepFrom := s1.l2.sweepFrom + s1.l2.sweepHalf
      sweepHalf := turnerHalf s1 } }
  else s1

/-- Remove the dynamic entries whose destination a test accepts: how many, and the state. -/
def l2Remove (test : Nat → L2Data → Bool) (s : State) : Nat × State :=
  let hits := fun (p : Nat × L2Entry) => !p.2.isStatic && ((p.2.c0.map (test p.2.key)).getD false
    || (p.2.c1.map (test p.2.key)).getD false)
  ((s.l2.entries.filter hits).length, setL2 (s.l2.entries.filter (fun p => !hits p)) s)

/-- A write of L2_FLUSH (R214): go starts a flush by the selectors enabled, or is ignored while one runs. -/
def l2FlushGo (word : Nat) (s : State) : State :=
  if ¬ bitOf word 0 then s
  else if s.l2.flush.isSome then raise (.l2b 0) Ev.l2FlushBusy 0 s
  else
    let r := l2Remove (fun key d =>
      (!bitOf word 1 || (d.unit == s.roll.unit && d.port == fieldOf word 12 4))
        && (!bitOf word 2 || key / 2 ^ 48 == fieldOf word 26 13)
        && (!bitOf word 3 || d.unit == rwField s (.l2b 0) 21 9 0)) s
    { r.2 with l2 := { r.2.l2 with flush := some r.1 } }

/-- L2_FLUSH_DONE: the flush has visited every entry (R214). -/
def execL2FlushDone (s : State) : Host.Outcome State Fault Refusal :=
  .next (match s.l2.flush with
    | none => s
    | some n => raise (.l2b 0) Ev.l2FlushDone (satField 0 22 n) { s with l2 := { s.l2 with flush := none } })

/-- The flush by unit of a unit declared lost (R222). -/
def flushByUnit (unit : Nat) (s : State) : State :=
  let r := l2Remove (fun _ d => d.unit == unit) s
  raise (.l2b 0) Ev.l2FlushDone (satField 0 22 r.1 + 2 ^ 22 + unit * 2 ^ 23) r.2

/-! ## Shufflers and scrubber -/

/-- The routes of a zone after its first row, or pair, has moved below its last: it frees a row at the zone's top
(R236). -/
def moveFirst : List Route → List Route
  | [] => []
  | r :: rs => rs ++ [r]

/-- The zones of tags below a tag in its group, from the nearest: each moves its first row (R236). -/
def moveZones (rs : List Route) (tag : Nat) : List Route :=
  (((List.range tag).reverse).filter (fun t => groupOf t == groupOf tag)).flatMap
    (fun t => moveFirst (rs.filter (fun r => r.length == t)))

/-- Non-empty zones of a tag's group below it, each of which gives one move (R236). -/
def movesFor (rs : List Route) (tag : Nat) : Nat :=
  ((List.range tag).filter (fun t => groupOf t == groupOf tag && rs.any (fun r => r.length == t))).length

/-- A slice's routes with a new one at the top of the zones below its own, which have moved (R235, R236). -/
def placeRow (r : Route) (rs : List Route) : List Route :=
  rs.filter (fun x => decide (groupOf x.length < groupOf r.length) || decide (r.length ≤ x.length)) ++ r
    :: moveZones rs r.length ++ rs.filter (fun x => decide (groupOf r.length < groupOf x.length))

/-- Free rows of a slice's group. -/
def poolRows (s : State) (n g : Nat) : Nat :=
  groupCap s n g - rowsIn ((sliceRoutes s n).filter (fun r => groupOf r.length == g))

/-- Rows that a group gives a pool that lacks some: the pools of pairs give pairs (R235, R239). -/
def givesRows (s : State) (n d lack : Nat) : Nat :=
  if lack = 0 then 0 else if d < 2 then (if 2 ≤ poolRows s n d then 2 else 0) else min (poolRows s n d) lack

/-- A pool that lacks rows is refilled from the other pools, the nearest group first (R239; notes/assumptions 141). -/
def refillPool (n g : Nat) : List Nat → Nat → State → State
  | [], _, s => s
  | d :: ds, lack, s =>
    let k := if d = g then 0 else givesRows s n d lack
    refillPool n g ds (lack - k) { s with routes := { s.routes with
      caps := mset 10240 (mset 10240 s.routes.caps (4 * n + d) (groupCap s n d - k)) (4 * n + g)
        (groupCap s n g + if d = g then 0 else k) } }

/-- Place the first queued placement of a shuffler (R236 to R239): the row is taken from its group's pool, and each move
writes its copy before the source is cleared, so no search misses a route. -/
def placeRoute (d : Nat) (p : Placement) (s : State) : State :=
  let rs := sliceRoutes s p.slice
  if rs.any (sameKey p.route) then
    let merge := fun (x : Route) => if sameKey p.route x then
        { x with r0 := p.route.r0.or x.r0, r1 := p.route.r1.or x.r1 } else x
    { s with routes := { s.routes with slices := mset [] s.routes.slices p.slice (rs.map merge) } }
  else
    let g := groupOf p.route.length
    let s1 := refillPool p.slice g [3, 2, 1, 0] (rowsOf p.route.v6 p.route.length - poolRows s p.slice g) s
    let fresh := fun (k : Nat) => !(k / 2 ^ 48 == 2 && k % 2 ^ 32 / 40960 == p.slice)
    { s1 with
      lostEntries := s1.lostEntries.filter fresh
      badEntries := s1.badEntries.filter fresh
      routes := { s1.routes with
        slices := mset [] s1.routes.slices p.slice (placeRow p.route rs)
        moves := mset 0 s1.routes.moves d ((mget 0 s1.routes.moves d + movesFor rs p.route.length) % 2 ^ 32) } }

/-- PLACEMENT: shuffler d places its oldest queued route (R236). -/
def execPlacement (d : Fin 2) (s : State) : Host.Outcome State Fault Refusal :=
  .next (if d.val = 0 then
      match s.routes.queue0 with
      | [] => s
      | p :: ps => placeRoute 0 p { s with routes := { s.routes with queue0 := ps } }
    else
      match s.routes.queue1 with
      | [] => s
      | p :: ps => placeRoute 1 p { s with routes := { s.routes with queue1 := ps } })

/-- ROUTE_SCRUB: the scrubber compares one route row with its shadow and repairs a mismatch by a make-before-break copy
(R237, R251): a row that fails parity, or one whose cells the command says differ. -/
def execRouteScrub (slice : Fin 64) (row : Nat) (mismatch : Bool) (s : State) : Host.Outcome State Fault Refusal :=
  let idx := slice.val * 40960 + row
  .next (if row < 40960 ∧ (mismatch ∨ badEntry s 2 0 idx) then
      raise (.rslice slice.val) Ev.tableRepaired (2 + idx * 2 ^ 18) (endLoss (tblKey 2 0 idx) s)
    else s)

end Sys2Proof.Machine
end

