-- ==== Sys2Proof/Machine/Reseq.lean ====
section
/-!
DEFINITION. The destination side of the fabric (R50 to R54, R267, R335 to R342): incarnations and the loss of a
unit, grants and their reserve, assembly, the late store and the resequencer.
-/
namespace Sys2Proof.Machine

/-! ## Frames this unit holds, by epoch (R60, R356) -/

/-- The descriptors in a list of pages, in order, with what the pages before left begun. -/
def pagedDescs (s : State) : List Nat → List Byte → Nat → List Desc
  | [], partIn, _ => if partIn = [] then [] else [Desc.parse partIn]
  | p :: ps, partIn, skip =>
    let r := parsePage (pageHeader s p).1 (memRead s.cave.mem (pageOffset p + 64) pageBody) partIn skip
    r.1.map (fun f => f.1) ++ pagedDescs s ps r.2.1 r.2.2

/-- The epochs of the frames this unit holds, those in assembly and in the late store included (R60). -/
def heldEpochs (s : State) : List Nat :=
  s.descs.map (fun p => p.2.rind.epoch)
    ++ s.fabric.late.map (fun f => f.2.2.1.epoch)
    ++ s.fabric.partialFrames.filterMap (fun p => (p.2.cells.find? (fun c => c.1 == 0)).map (fun c => (Rind.parse c.2).epoch))
    ++ s.qm.states.flatMap (fun p => (pagedDescs s p.2.pages p.2.partIn p.2.partBad).map (fun d => d.rind.epoch))

/-- The oldest of a list of epochs (R355). -/
def oldestOf : List Nat → Option Nat
  | [] => none
  | e :: es =>
    match oldestOf es with
    | none => some e
    | some o => if epochOlder e o then some e else some o

/-- The other units known to be admitted: those of the assignments and those with a live incarnation (R342, R345). -/
def admittedUnits (s : State) : List Nat :=
  (s.roll.admittedIds.map (fun a => a.2.1) ++ (s.roll.peers.filter (fun p => p.2.liveInc)).map (fun p => p.1)).filter
    (fun u => u != s.roll.unit)

/-- Whether the latest beat of every admitted unit shows no frame older than the live epoch (R356). -/
def beatsDrained (s : State) : Bool :=
  (admittedUnits s).all (fun u => (peerOf s u).beatSeen && !epochOlder (peerOf s u).oldestEpoch s.epoch.live)

/-- Keep the instant since which the beats have been drained (R356). -/
def followBeats (s : State) : State :=
  let t := match s.roll.drainedSince with
    | some t => t
    | none => s.now
  { s with roll := { s.roll with drainedSince := if beatsDrained s then some t else none } }

/-! ## Another unit -/

/-- A stream's key: source unit and egress queue (R341). -/
def streamKey (u q : Nat) : Nat := u * 2 ^ 20 + q

/-- The unit of a stream's key. -/
def streamUnit (k : Nat) : Nat := k / 2 ^ 20

/-- The queue's side of the unit: its port's pipe (R257). -/
def queueSide (s : State) (q : Nat) : Nat := (qcfg s q).pipe / 16

/-! ## The pooled reserve of a queue's grants (R267) -/

/-- The reserve of an egress queue. -/
def reserveOf (s : State) (q : Nat) : List Nat × List Nat := mget ([], []) s.fabric.reserve q

/-- The state with a reserve replaced. -/
def setReserve (q : Nat) (x : List Nat × List Nat) (s : State) : State :=
  { s with fabric := { s.fabric with reserve := mset ([], []) s.fabric.reserve q x } }

/-- Free buffers of a pool. -/
def freeAll (pool : Nat) : List Nat → State → State
  | [], s => s
  | i :: is, s => freeAll pool is (freeBuffer (handle pool i) s)

/-- Return the reserve that a queue's remaining grants do not need (R267). -/
def returnReserve (q : Nat) (s : State) : State :=
  let keep := 40 * (s.fabric.grants.filter (fun g => g.queue == q && g.left != 0)).length
  let r := reserveOf s q
  freeAll 7 (r.2.drop keep) (freeAll 0 (r.1.drop keep) (setReserve q (r.1.take keep, r.2.take keep) s))

/-- Whether a grant is at or after another in id order (R337). -/
def idFrom (a b : Nat) : Bool := decide ((b + 65536 - a) % 65536 < 32768)

/-- Charge n bytes to a source's grants of a queue in id order from `id`; a spent grant stands until its lease ends
(R337, R338). -/
def chargeGrants (u q id : Nat) : List Grant → Nat → List Grant
  | [], _ => []
  | g :: gs, n =>
    if g.unit = u ∧ g.queue = q ∧ idFrom id g.id then
      let m := min n g.left
      { g with left := g.left - m } :: chargeGrants u q id gs (n - m)
    else g :: chargeGrants u q id gs n

/-- Claim a frame's buffers from its queue's reserve, or, where the reserve is short, as the fabric class. -/
def drawReserve (q len : Nat) (s : State) : Option (List Nat × Nat) × State :=
  let n := cellsFor len
  let r := reserveOf s q
  match r.2 with
  | i :: is =>
    if n ≤ r.1.length then (some (r.1.take n, i), setReserve q (r.1.drop n, is) s)
    else match claimFrame (ownerName 4 (queueSide s q)) len 1 s with
      | (some (cells, j :: _), s1) => (some (cells, j), s1)
      | (_, s1) => (none, s1)
  | [] => match claimFrame (ownerName 4 (queueSide s q)) len 1 s with
      | (some (cells, j :: _), s1) => (some (cells, j), s1)
      | (_, s1) => (none, s1)

/-! ## The resequencer (R50, R52, R341) -/

/-- The resequencer's owner name for a frame: its side of the Press (R257). -/
def reseqOwner (cell : Nat) : Nat := ownerName 0xA (cell / 753664)

/-- Drop a complete frame of the resequencer. -/
def dropComplete (i reason : Nat) (s : State) : State :=
  let d := desc s i
  freeDescSlot i (endOwnerHold (handle 0 d.firstCell) (whey reason (qcfg s d.rind.queue).port s))

/-- Release a frame toward its egress queue, where it arrives in the next clock (R55); one whose epoch this unit can
neither wait for nor read is dropped as it reaches the unit (R355). -/
def releaseFrame (i : Nat) (s : State) : State :=
  let d := desc s i
  if epochDiff s d = 65535 ∧ ¬ epochReadable s (d.rind.epoch % 65536) then dropComplete i Wh.epochStale s
  else if 2 ≤ epochDiff s d ∧ epochDiff s d ≠ 65535 then dropComplete i Wh.epochAhead (noteSkew d s)
  else
    let it : EnqItem := { desc := i, owner := reseqOwner d.firstCell, last := true, ready := s.now + 625 }
    { s with enqPath := s.enqPath ++ [it] }

/-- The distance of a sequence number past another, modulo 2³² (R50). -/
def seqAfter (a b : Nat) : Nat := (a + 2 ^ 32 - b % 2 ^ 32) % 2 ^ 32

/-- A stream's held frames, lowest sequence first. -/
def heldOf (s : State) (k : Nat) : List HeldFrame := mget [] s.fabric.heldFrames k

/-- The state with a stream's held frames replaced. -/
def setHeld (k : Nat) (x : List HeldFrame) (s : State) : State :=
  { s with fabric := { s.fabric with heldFrames := mset [] s.fabric.heldFrames k x } }

/-- The sequence a stream expects. -/
def expectedOf (s : State) (k : Nat) : Nat := mget 0 s.fabric.expected k

/-- The state with a stream's expected sequence replaced. -/
def setExpected (k v : Nat) (s : State) : State :=
  { s with fabric := { s.fabric with expected := mset 0 s.fabric.expected k (v % 2 ^ 32) } }

/-- Release the held frames that follow without a gap. -/
def releaseRun (k : Nat) : List HeldFrame → State → State
  | [], s => setHeld k [] s
  | h :: hs, s =>
    if h.seq = expectedOf s k then releaseRun k hs (releaseFrame h.desc (setExpected k (h.seq + 1) s))
    else setHeld k (h :: hs) s

/-- Whether a late frame's sequence lies below the number its stream expects (R338). -/
def lateLost (k e : Nat) (l : Nat × Nat × Rind × List Byte) : Bool :=
  streamKey l.1 l.2.2.1.queue == k && decide (2 ^ 31 ≤ seqAfter l.2.2.1.sequence e)

/-- Drop the late frames of a stream whose sequence has been declared lost (R338). -/
def dropLost (k : Nat) (s : State) : State :=
  let gone := s.fabric.late.filter (lateLost k (expectedOf s k))
  wheyN Wh.reorderLate gone.length (qcfg s (k % 2 ^ 20)).port
    { s with fabric := { s.fabric with late := s.fabric.late.filter (fun l => !lateLost k (expectedOf s k) l) } }

/-- After an expiry, the hold of the new oldest frame runs from its own arrival, and ends in the next clock where that
time has passed (R52). -/
def renewHold (k : Nat) (s : State) : State :=
  match heldOf s k with
  | [] => s
  | h :: hs => setHeld k ({ h with due := max h.due (s.now + 625) } :: hs) s

/-- Expire a stream's hold: the numbers missing below its oldest held frame are lost under a reason (R52). -/
def expireHold (k reason : Nat) (s : State) : State :=
  match heldOf s k with
  | [] => s
  | h :: _ =>
    let missing := seqAfter h.seq (expectedOf s k)
    let port := (qcfg s (k % 2 ^ 20)).port
    renewHold k (dropLost k (releaseRun k (heldOf s k) (setExpected k h.seq (wheyN reason missing port s))))

/-- The stream that holds the frame held longest, with the exception of none. -/
def oldestStream : SMap (List HeldFrame) → Option (Nat × Nat)
  | [] => none
  | (k, hs) :: m =>
    let t := (hs.map (fun h => h.arrivedAt)).foldl min ((hs.head?.map (fun h => h.arrivedAt)).getD 0)
    match oldestStream m with
    | none => some (k, t)
    | some b => if b.2 < t then some b else some (k, t)

/-- Frames held in all. -/
def heldCount (s : State) : Nat := (s.fabric.heldFrames.map (fun p => p.2.length)).foldl (· + ·) 0

/-- Whether no context or no storage is left for a held frame of a stream (R341). -/
def holdFull (k : Nat) (s : State) : Bool :=
  ((heldOf s k).isEmpty && decide (8192 ≤ s.fabric.heldFrames.length)) || decide (524288 ≤ heldCount s)

/-- Make room for a held frame of a stream: the oldest hold expires, and again until there is room (R52, R341). -/
def makeHoldRoom (k : Nat) : Nat → State → State
  | 0, s => s
  | fuel + 1, s =>
    if holdFull k s then
      match oldestStream s.fabric.heldFrames with
      | none => s
      | some o => makeHoldRoom k fuel
          (expireHold o.1 Wh.reorderLost (whey Wh.reorderEvict (qcfg s (o.1 % 2 ^ 20)).port s))
    else s

/-- Put a frame among a stream's held frames, in sequence order from the expected number. -/
def insertHeld (e : Nat) (h : HeldFrame) : List HeldFrame → List HeldFrame
  | [] => [h]
  | x :: xs => if seqAfter h.seq e < seqAfter x.seq e then h :: x :: xs else x :: insertHeld e h xs

/-- Expire a stream's holds until a number lies less than 65,536 beyond the expected one (R341). -/
def evictFar (k seq : Nat) : Nat → State → State
  | 0, s => s
  | fuel + 1, s =>
    let d := seqAfter seq (expectedOf s k)
    if 65536 ≤ d ∧ d < 2 ^ 31 ∧ heldOf s k ≠ [] then
      evictFar k seq fuel (expireHold k Wh.reorderLost (whey Wh.reorderEvict (qcfg s (k % 2 ^ 20)).port s))
    else s

/-- Release the frame a stream expects, and every held frame that now follows without a gap. -/
def passFrame (k i seq : Nat) (s : State) : State :=
  let s1 := releaseFrame i (setExpected k (seq + 1) s)
  releaseRun k (heldOf s1 k) s1

/-- Hold a frame of a stream that arrives behind a gap; the hold of the stream's oldest frame runs from its arrival. -/
def holdBehind (k i seq : Nat) (s : State) : State :=
  let h : HeldFrame := { seq := seq, desc := i, arrivedAt := s.now, due := s.now + rwlField s .reseq 0 9 0 * psUs }
  let s1 := setHeld k (insertHeld (expectedOf s k) h (heldOf s k)) s
  evictFar k seq ((heldOf s1 k).length + 1)
    (if heldOf s k = [] then perfEvent { code := 0x045, master := 0x38 } s1 else s1)

/-- Holds of a stream that ended in an earlier clock have expired before an arrival of this one (R55). -/
def settleHold (k : Nat) : Nat → State → State
  | 0, s => s
  | fuel + 1, s =>
    match heldOf s k with
    | [] => s
    | h :: _ => if h.due + 625 ≤ s.now then settleHold k fuel (expireHold k Wh.reorderLost s) else s

/-- The state in which a complete frame of a stream is judged: overdue holds have expired, and a frame behind a gap has
room to be held. -/
def beforeFrame (k seq : Nat) (s : State) : State :=
  let s1 := settleHold k (heldOf s k).length s
  let d := seqAfter seq (expectedOf s1 k)
  if d = 0 ∨ 2 ^ 31 ≤ d then s1 else makeHoldRoom k (heldCount s1) s1

/-- A complete frame of a stream (R50, R52, R341). -/
def resequence (k i : Nat) (s : State) : State :=
  let seq := (desc s i).rind.sequence
  let s1 := beforeFrame k seq s
  let d := seqAfter seq (expectedOf s1 k)
  if 2 ^ 31 ≤ d then dropComplete i Wh.reorderLate s1
  else if d = 0 then passFrame k i seq s1
  else holdBehind k i seq s1

/-- The hold of a stream expires where its time has come (R52). -/
def expireDue (k : Nat) (s : State) : State :=
  match heldOf s k with
  | [] => s
  | h :: _ => if h.due ≤ s.now then expireHold k Wh.reorderLost s else s

/-- The holds of a list of streams. -/
def expireDues : List Nat → State → State
  | [], s => s
  | k :: ks, s => expireDues ks (expireDue k s)

/-- REORDER_HOLD_EXPIRY: the hold of a stream expires (R52), after every arrival of the clock (R55). -/
def execReorderHoldExpiry (unit : Fin 1024) (q : QueueId) (s : State) : Host.Outcome State Fault Refusal :=
  .next (if arrivalsWait s then s else expireDue (streamKey unit.val q.val) s)

/-! ## Delivery (R337, R338, R342) -/

/-- Store a complete frame of a queue and resequence it. -/
def deliverFrame (u : Nat) (r : Rind) (bs : List Byte) (s : State) : State :=
  let q := r.queue
  match drawReserve q bs.length s with
  | (none, s1) => whey (claimReason (ownerName 4 (queueSide s q)) bs.length s) (qcfg s q).port s1
  | (some (cells, i), s1) =>
    let o := reseqOwner (cells.headD 0)
    let s2 := storeFrame cells bs o s1
    let d : Desc := { rind := r, firstCell := cells.headD noLink, cellCount := cells.length, holderQueue := q }
    resequence (streamKey u q) i (setRecord (handle 7 i) o 1 (setDesc i d s2))

/-- Bytes in the late store of a side. -/
def lateBytes (s : State) (side : Nat) : Nat :=
  ((s.fabric.late.filter (fun l => queueSide s l.2.2.1.queue == side)).map (fun l => l.2.2.2.length)).foldl (· + ·) 0

/-- A complete frame that is late: held until a grant is spent on it, or dropped (R338). -/
def holdLate (u : Nat) (r : Rind) (bs : List Byte) (s : State) : State :=
  if lateLost (streamKey u r.queue) (expectedOf s (streamKey u r.queue)) (u, 0, r, bs) then
    whey Wh.reorderLate (qcfg s r.queue).port s
  else if 1048576 < lateBytes s (queueSide s r.queue) + bs.length then whey Wh.leaseLate (qcfg s r.queue).port s
  else { s with fabric := { s.fabric with late := s.fabric.late ++ [(u, 0, r, bs)] } }

/-! ## Loss of a unit (R222, R353) -/

/-- Release the held frames of streams in order; their gaps count as UNIT_LOST (R54). -/
def releaseAll (k : Nat) : Nat → State → State
  | 0, s => s
  | fuel + 1, s => if heldOf s k = [] then s else releaseAll k fuel (expireHold k Wh.unitLost s)

/-- Release the streams of a list of keys. -/
def releaseStreams : List Nat → State → State
  | [], s => s
  | k :: ks, s => releaseStreams ks (releaseAll k (heldOf s k).length s)

/-- Flush queues under a reason. -/
def flushQueues (reason : Nat) : List Nat → State → State
  | [], s => s
  | q :: qs, s => flushQueues reason qs (emptyQueue q reason s).2

/-- Drop the cells toward a unit that wait on links (R353). -/
def dropCells (u : Nat) : List Nat → State → State
  | [], s => s
  | n :: ns, s =>
    let x := linkOfNo s n
    let stays := fun (c : TxCell) => c.dest != u || c.type == cRoll || c.type == cWithdraw
    let keep := x.waiting.filter stays
    let s1 := oweCredits (x.waiting.filter (fun c => !stays c)) (setLink n { x with waiting := keep } s)
    dropCells u ns { s1 with fabric := { s1.fabric with
      cellDrops := (s1.fabric.cellDrops + (x.waiting.length - keep.length)) % 2 ^ 32 } }

/-- The queues that lead to a unit as VOQs and hold a state or journalled frames. -/
def voqsToward (s : State) (u : Nat) : List Nat :=
  ((s.qm.states.map (fun p => p.1) ++ s.qm.journal.map (fun j => j.1)).eraseDups).filter
    (fun q => q / 1024 == u && decide (u ≠ s.roll.unit) && (qcfg s q).role == 1)

/-- End the credit state toward a unit (R342, R353). -/
def endCredit (u : Nat) (s : State) : State :=
  { s with fabric := { s.fabric with
      voqs := s.fabric.voqs.filter (fun p => p.1 / 1024 != u)
      received := s.fabric.received.filter (fun p => streamUnit p.1 != u)
      granted := s.fabric.granted.filter (fun p => streamUnit p.1 != u) } }

/-- Declare a unit lost (R353); `newer` says that a newer incarnation caused it, which FABRIC_UNITS_LOST does not count
(R342, R358). -/
def declareLost (u : Nat) (newer : Bool) (s : State) : State :=
  let x := peerOf s u
  let s1 := releaseStreams ((s.fabric.heldFrames.map (fun p => p.1)).filter (fun k => streamUnit k == u)) s
  let gone := s1.fabric.partialFrames.filter (fun p => p.1 / 2 ^ 24 == u)
  let lateGone := s1.fabric.late.filter (fun l => l.1 == u)
  let s2 := wheyN Wh.unitLost (gone.length + lateGone.length) 0 { s1 with fabric := { s1.fabric with
    partialFrames := s1.fabric.partialFrames.filter (fun p => p.1 / 2 ^ 24 != u)
    late := s1.fabric.late.filter (fun l => l.1 != u)
    unitsLost := (s1.fabric.unitsLost + b2n (!newer)) % 2 ^ 32 } }
  let s3 := flushQueues Wh.destLost (voqsToward s2 u) (flushByUnit u s2)
  let s4 := endCredit u (dropCells u (s3.fabric.links.map (fun p => p.1)) s3)
  let s5 := setPeer u { x with liveInc := false, lost := true, beatSeen := false } s4
  raise .fabric Ev.unitLostDeclared (u + x.incarnation * 2 ^ 10 + b2n newer * 2 ^ 18)
    (followBeats { s5 with roll := { s5.roll with
      admittedIds := s5.roll.admittedIds.filter (fun a => a.2.1 != u) } })

/-- UNIT_LOSS_TIMEOUT: no cell from a unit for loss_beats × beat_interval (R352), after every arrival of the clock
(R55). -/
def execUnitLossTimeout (unit : Fin 1024) (s : State) : Host.Outcome State Fault Refusal :=
  let x := peerOf s unit.val
  let wait := rwlField s .fabric 4 9 0 * rwlField s .fabric 4 13 10 * psUs
  .next (if x.liveInc ∧ ¬ arrivalsWait s ∧ unit.val ≠ s.roll.unit ∧ x.heardAt + wait ≤ s.now then declareLost unit.val false s else s)

/-! ## Incarnations (R342) -/

/-- Adopt an incarnation of a unit as live: its streams and this unit's streams toward it start at 0. -/
def adopt (u i : Nat) (s : State) : State :=
  let s1 := endCredit u (setPeer u { peerOf s u with
    known := true, liveInc := true, lost := false, incarnation := i, heardAt := s.now } s)
  followBeats { s1 with
    fabric := { s1.fabric with expected := s1.fabric.expected.filter (fun p => streamUnit p.1 != u) }
    roll := { s1.roll with nextSeq := s1.roll.nextSeq.filter (fun p => p.1 / 1024 != u) } }

/-- What R342 says of an incarnation carried: whether what carries it is used, and the state. -/
def checkIncarnation (u i : Nat) (s : State) : Bool × State :=
  let x := peerOf s u
  let d := (i + 256 - x.incarnation % 256) % 256
  if ¬ x.known then (true, adopt u i s)
  else if x.liveInc then
    if d = 0 then (true, s)
    else if d < 128 then (true, adopt u i (declareLost u true s))
    else (false, s)
  else if d = 0 then (false, s)
  else (true, adopt u i s)

/-! ## Assembly (R338, R340) -/

/-- A frame in assembly is complete: its bytes. -/
def Assembly.complete (a : Assembly) : Option (List Byte) :=
  match a.last with
  | none => none
  | some l =>
    if (List.range (l + 1)).all (fun i => mhas a.cells i) then some ((List.range (l + 1)).flatMap (fun i => mget [] a.cells i))
    else none

/-- A complete frame from a unit: its Rind's version and incarnation are checked, and it is charged and delivered, or
late (R171). -/
def completeFrame (u : Nat) (a : Assembly) (bs : List Byte) (s : State) : State :=
  let r := Rind.parse bs
  let body := (bs.drop 40).take r.length
  let c := checkIncarnation u r.incarnation s
  if r.version ≠ 1 then whey Wh.rindInvalid (qcfg s r.queue).port s
  else if ¬ c.1 then whey Wh.staleSource (qcfg s r.queue).port c.2
  else if a.late then holdLate u r body c.2
  else
    let s1 := { c.2 with fabric := { c.2.fabric with
      grants := chargeGrants u r.queue a.grant c.2.fabric.grants (r.length + 40) } }
    returnReserve r.queue (deliverFrame u r body s1)

/-- Whether the lease of a grant holds (R338). -/
def leaseHolds (s : State) (u id : Nat) : Bool :=
  s.fabric.grants.any (fun g => g.unit == u && g.id == id && decide (s.now ≤ g.issuedAt + 200 * psUs))

/-- A DATA cell for this unit: source, tag, index, last, grant, payload bytes (R340). -/
def dataCell (u tag index : Nat) (last : Bool) (id : Nat) (payload : List Byte) (s : State) : State :=
  let k := u * 2 ^ 24 + tag
  let a0 := if mhas s.fabric.partialFrames k then mget {} s.fabric.partialFrames k
    else { since := s.now, grant := id }
  let a := { a0 with
    cells := mput a0.cells index payload
    last := if last then some index else a0.last
    late := a0.late || !leaseHolds s u id }
  match a.complete with
  | none => { s with fabric := { s.fabric with partialFrames := mput s.fabric.partialFrames k a } }
  | some bs => completeFrame u a bs { s with fabric := { s.fabric with
      partialFrames := mdel s.fabric.partialFrames k } }

/-- A frame that is incomplete 100 µs after its first cell is freed (R340). -/
def expireAssembly (k : Nat) (s : State) : State :=
  let a := mget {} s.fabric.partialFrames k
  if mhas s.fabric.partialFrames k ∧ a.since + 100 * psUs ≤ s.now then
    whey Wh.linkLost 0 { s with fabric := { s.fabric with partialFrames := mdel s.fabric.partialFrames k } }
  else s

/-- The frames in assembly of a list of keys. -/
def expireAssemblies : List Nat → State → State
  | [], s => s
  | k :: ks, s => expireAssemblies ks (expireAssembly k s)

/-- ASSEMBLY_TIMEOUT: a frame is incomplete 100 µs after its first cell (R340), after every arrival of the clock (R55). -/
def execAssemblyTimeout (unit : Fin 1024) (tag : BitVec 24) (s : State) : Host.Outcome State Fault Refusal :=
  .next (if arrivalsWait s then s else expireAssembly (unit.val * 2 ^ 24 + tag.toNat) s)

/-! ## Grants at the destination (R335 to R338) -/

/-- Outstanding credit of an egress queue. -/
def outstanding (s : State) (q : Nat) : Nat :=
  ((s.fabric.grants.filter (fun g => g.queue == q)).map (fun g => g.left)).foldl (· + ·) 0

/-- A source's demand on an egress queue in grants (R335). -/
def demand (s : State) (u q : Nat) : Nat :=
  (mget 0 s.fabric.received (streamKey u q) + 2 ^ 32 - mget 0 s.fabric.granted (streamKey u q)) % 2 ^ 32

/-- The sources of a queue that hold demand, the first after the one served last (R336). -/
def nextSource (s : State) (q : Nat) : Option Nat :=
  let us := ((s.fabric.received.map (fun p => p.1)).filter
    (fun k => k % 2 ^ 20 == q && decide (0 < demand s (streamUnit k) q))).map streamUnit
  let lastU := mget 0 s.fabric.lastSource q
  match us.find? (fun u => decide (lastU < u)) with
  | some u => some u
  | none => us.head?

/-- Spend a grant's 4 KiB on the oldest late frame of a source and queue; false where none waits (R338). -/
def spendLate (u q : Nat) (s : State) : Bool × State :=
  match s.fabric.late.find? (fun l => l.1 == u && l.2.2.1.queue == q) with
  | none => (false, s)
  | some l =>
    let paid := l.2.1 + 4096
    if l.2.2.2.length + 40 ≤ paid then
      (true, returnReserve q (deliverFrame u l.2.2.1 l.2.2.2
        { s with fabric := { s.fabric with late := s.fabric.late.erase l } }))
    else (true, { s with fabric := { s.fabric with
      late := s.fabric.late.map (fun x => if x = l then (l.1, paid, l.2.2) else x) } })

/-- Issue one grant of a queue to a source whose reserve is claimed (R337, R338). -/
def sendGrant (u q : Nat) (s : State) : State :=
  let id := mget 0 s.fabric.nextGrant u
  let g := (mget 0 s.fabric.granted (streamKey u q) + 1) % 2 ^ 32
  let s1 := { s with fabric := { s.fabric with
    granted := mset 0 s.fabric.granted (streamKey u q) g
    lastSource := mset 0 s.fabric.lastSource q u } }
  let late := spendLate u q s1
  if late.1 then perfEvent { code := 0x044, master := 0x37 } late.2
  else
    let s2 := perfEvent { code := 0x044, master := 0x37 } { s1 with fabric := { s1.fabric with
      nextGrant := mset 0 s1.fabric.nextGrant u ((id + 1) % 65536)
      grants := s1.fabric.grants ++ [{ unit := u, queue := q, id := id, issuedAt := s.now }] } }
    (sprayCell (routeMask s2 false u)
      { type := cGrant, dest := u, source := s2.roll.unit, length := 8,
        payload := beBytes 8 (q % 1024 * 2 ^ 54 + id * 2 ^ 38 + 1 * 2 ^ 32 + g) } s2).2

/-- GRANT_ISSUE: an egress queue below its window grants 4 KiB to its next source (R336). -/
def execGrantIssue (q : QueueId) (s : State) : Host.Outcome State Fault Refusal :=
  let n := q.val
  .next (if ¬ fabricOn s ∨ n / 1024 ≠ s.roll.unit ∨ (qcfg s n).role ≠ 2
      ∨ rwlField s .fabric 5 13 0 * 1024 ≤ (qst s n).depth * 64 + outstanding s n then s
    else match nextSource s n with
      | none => s
      | some u =>
        if 32768 ≤ (s.fabric.grants.filter (fun g => g.unit == u)).length
          ∨ (usable s (routeMask s false u) u).isEmpty then s
        else match claimFrame (ownerName 4 (queueSide s n)) (40 * 256) 40 s with
          | (some r, s1) =>
            let old := reserveOf s1 n
            sendGrant u n (setReserve n (old.1 ++ r.1, old.2 ++ r.2) s1)
          | (none, s1) => s1)

/-- A lease of 200 µs has ended: the grant goes and its unused reserve returns (R338). -/
def endLease (g : Grant) (s : State) : State :=
  if g.issuedAt + 200 * psUs ≤ s.now then
    returnReserve g.queue { s with fabric := { s.fabric with grants := s.fabric.grants.erase g } }
  else s

/-- The leases of a list of grants. -/
def endLeases : List Grant → State → State
  | [], s => s
  | g :: gs, s => endLeases gs (endLease g s)

/-- LEASE_EXPIRY: a lease ends (R338), after every arrival of the clock (R55). -/
def execLeaseExpiry (unit : Fin 1024) (grant : BitVec 16) (s : State) : Host.Outcome State Fault Refusal :=
  .next (if arrivalsWait s then s
    else match s.fabric.grants.find? (fun g => g.unit == unit.val && g.id == grant.toNat) with
      | none => s
      | some g => endLease g s)

end Sys2Proof.Machine
end

