-- ==== Sys2Proof/Machine/Fabric.lean ====
section
/-!
DEFINITION. The source side of the fabric, the Skov receiver, and the roll call (R319 to R358).
-/
namespace Sys2Proof.Machine

/-! ## Sending frames (R327, R332, R335, R337) -/

/-- A VOQ's credit. -/
def voqOf (s : State) (q : Nat) : VoqSt := mget {} s.fabric.voqs q

/-- The state with a VOQ's credit replaced. -/
def setVoq (q : Nat) (x : VoqSt) (s : State) : State :=
  { s with fabric := { s.fabric with voqs := mset {} s.fabric.voqs q x } }

/-- The credited backlog of a VOQ: each frame's length and its Rind (R335). -/
def backlog (s : State) (q : Nat) : Nat :=
  let x := qst s q
  (((x.head ++ x.tail).map (fun i => (desc s i).rind.length + 40)).foldl (· + ·) 0)
    + (((pagedDescs s x.pages x.partIn x.partBad).map (fun d => d.rind.length + 40)).foldl (· + ·) 0)

/-- Raise a VOQ's request count to cover its backlog (R335). -/
def raiseCount (s : State) (q : Nat) : VoqSt :=
  let v := voqOf s q
  let b := backlog s q
  if b ≤ v.asked then v
  else
    let n := (b - v.asked + 4095) / 4096
    { v with count := (v.count + n) % 2 ^ 32, asked := v.asked + 4096 * n }

/-- REQUEST_SEND: a VOQ sends a new count, at most once per µs, or repeats its latest every 100 µs (R335). -/
def execRequestSend (q : QueueId) (s : State) : Host.Outcome State Fault Refusal :=
  let n := q.val
  let v := raiseCount s n
  let fresh := decide (v.count ≠ v.sentCount) && (v.sentAt == 0 || decide (v.sentAt - 1 + psUs ≤ s.now))
  let again := v.sentAt != 0 && decide (v.sentAt - 1 + 100 * psUs ≤ s.now)
  .next (if fabricOn s ∧ s.roll.admitted ∧ (qcfg s n).role = 1 ∧ (fresh ∨ again) then
      (sprayCell (routeMask s false (n / 1024))
        { type := cRequest, dest := n / 1024, source := s.roll.unit, length := 8
          payload := beBytes 8 (n % 1024 * 2 ^ 54 + v.count) }
        (setVoq n { v with sentAt := s.now + 1, sentCount := v.count } s)).2
    else s)

/-- GRANT_AGE_EXPIRY: grants not used within 150 µs are discarded (R338). -/
def execGrantAgeExpiry (q : QueueId) (s : State) : Host.Outcome State Fault Refusal :=
  let v := voqOf s q.val
  let old := v.grants.filter (fun g => decide (g.2.1 + 150 * psUs ≤ s.now))
  .next (if old = [] then s
    else setVoq q.val { v with
      grants := v.grants.filter (fun g => !decide (g.2.1 + 150 * psUs ≤ s.now))
      asked := v.asked - (old.map (fun g => g.2.2)).foldl (· + ·) 0 } s)

/-- Use n bytes of grants, oldest first (R337). -/
def useGrants : List (Nat × Nat × Nat) → Nat → List (Nat × Nat × Nat)
  | [], _ => []
  | g :: gs, n => if g.2.2 ≤ n then useGrants gs (n - g.2.2) else (g.1, g.2.1, g.2.2 - n) :: gs

/-- A frame's cells, before a link is chosen for each (R327). -/
def frameCells (c : TxCell) (bs : List Byte) : List TxCell :=
  let n := (bs.length + 255) / 256
  (List.range n).map (fun i =>
    let part := (bs.drop (256 * i)).take 256
    { c with first := i == 0, last := i + 1 == n, index := i, length := part.length, payload := part })

/-- Choose a link for each cell of a list, one by one (R332). -/
def placeAll (mask : Nat) : List TxCell → State → State
  | [], s => s
  | c :: cs, s => placeAll mask cs (placeCell mask c s).2

/-- Spray cells: each joins a link's transmit queue, then the links send what they can (R332, R360). -/
def sprayAll (mask : Nat) (cs : List TxCell) (s : State) : State :=
  pumpAll ((liveLinks s).map (fun p => p.2)) (placeAll mask cs s)

/-- The mask a source uses for a class: the Valiant set where the class has it (R332). -/
def firstMask (s : State) (q : Nat) : Nat × Bool :=
  if bitOf (rwlField s .fabric 0 22 15) (q % 8) then
    (rwlField s .fabric 9 31 0 + rwlField s .fabric 10 31 0 * 2 ^ 32, true)
  else (routeMask s false (q / 1024), false)

/-- The grants of a VOQ that its source may still use: those of the last 150 µs (R338). -/
def freshGrants (s : State) (q : Nat) : List (Nat × Nat × Nat) :=
  (voqOf s q).grants.filter (fun g => decide (s.now ≤ g.2.1 + 150 * psUs))

/-- Whether a VOQ's head may be sent: it stands, its queue is not locked, and grants cover it (R332, R337). -/
def voqEligible (s : State) (q : Nat) (d : Desc) : Bool :=
  let x := qst s q
  fabricOn s && s.roll.admitted && (qcfg s q).role == 1 && x.resident && !x.miss && !x.locked
    && decide (d.rind.length + 40 ≤ ((freshGrants s q).map (fun g => g.2.2)).foldl (· + ·) 0)
    && !(usable s (firstMask s q).1 (q / 1024)).isEmpty

/-- FABRIC_SEND: a VOQ's head is sprayed as cells and its hold ends (R260, R327, R332); a wrong or bad one is dropped
(R269). -/
def execFabricSend (q : QueueId) (s : State) : Host.Outcome State Fault Refusal :=
  let n := q.val
  .next (match (qst s n).head with
    | [] => s
    | i :: _ =>
      let d := desc s i
      if ¬ voqEligible s n d then s
      else if ¬ descOk s d then dropWrongDesc i (qcfg s n).port (popHead n s)
      else if frameBad s d then endDesc i (whey Wh.parity (qcfg s n).port (popHead n s))
      else
        let v := voqOf s n
        let gs := freshGrants s n
        let dest := n / 1024
        let len := d.rind.length + 40
        let m := firstMask s n
        let tag := mget 0 s.fabric.nextTag dest
        let cells := frameCells
          { type := cData, dest := dest, source := s.roll.unit, tag := tag, grant := (gs.head?.map (fun g => g.1)).getD 0
            valiant := m.2 } (d.rind.bytes ++ frameBytes s d)
        let s1 := setVoq n { v with
          grants := useGrants gs len
          asked := v.asked - len } { s with fabric := { s.fabric with
            nextTag := mset 0 s.fabric.nextTag dest ((tag + 1) % 2 ^ 24) } }
        endDesc i (popHead n (sprayAll m.1 cells s1)))

/-! ## The roll call: who is who (R344 to R349) -/

/-- The unit's provisioned ID (R457). -/
def ownId : Nat := Sys2Proof.Config.pidLow.toNat + 0x50A9 * 2 ^ 32

/-- system_id (R358). -/
def systemId (s : State) : Nat := rwField s .fabric 2 31 16

/-- master_eligible; a unit whose Triad is halted announces itself not eligible (R358, R440). -/
def eligible (s : State) : Bool := rwField s .fabric 2 0 0 == 1 && decide (s.triad.mode ≠ .halted)

/-- The number the plan gives to an ID. -/
def planned (s : State) (id : Nat) : Option Nat := (s.roll.plan.find? (fun p => p.1 == id)).map (fun p => p.2)

/-- Whether two units share a link in the wiring (R319); with no wiring set, nothing is known. -/
def beside (s : State) (a b : Nat) : Bool :=
  match rwlField s .fabric 0 2 1 with
  | 1 => true
  | 2 => a / 32 == b / 32 || a % 32 == b % 32
  | _ => true

/-- Whether a live link leads to a unit of an ID. -/
def linkedTo (s : State) (id : Nat) : Bool := s.fabric.links.any (fun p => p.2.live && p.2.peerId == id)

/-- The masters heard of on a live link: its peer where that may be master, and the master the peer has in view, where
that lies beside the peer, is not lost and is not itself heard by this unit (R345; notes/assumptions 146). -/
def heardOn (s : State) (x : LinkSt) : List (Nat × Nat) :=
  (if x.peerEligible ∧ ¬ (peerOf s x.peerUnit).lost then [(x.peerId, x.peerUnit)] else [])
    ++ (match x.peerMaster with
      | some m => if m.1 ≠ ownId ∧ ¬ linkedTo s m.1 ∧ beside s x.peerUnit m.2 ∧ ¬ (peerOf s m.2).lost then [m] else []
      | none => [])

/-- The masters that this unit's live links report. -/
def seenMasters (s : State) : List (Nat × Nat) :=
  (s.fabric.links.filter (fun p => p.2.live)).flatMap (fun p => heardOn s p.2)

/-- The lowest of a list of masters by provisioned ID. -/
def lowestMaster : List (Nat × Nat) → Option (Nat × Nat)
  | [] => none
  | m :: ms =>
    match lowestMaster ms with
    | none => some m
    | some b => if m.1 ≤ b.1 then some m else some b

/-- Keep the master in view: the lowest ID of the eligible admitted units heard of (R345). -/
def followMaster (s : State) : State :=
  let own := if s.roll.admitted ∧ eligible s then [(ownId, s.roll.unit)] else []
  let m := lowestMaster (own ++ seenMasters s)
  { s with roll := { s.roll with
      masterId := m
      master := s.roll.admitted && (m.map (fun x => x.1)) == some ownId } }

/-- The IDs that may be master among this unit and the units beside it. -/
def eligibleIds (s : State) : List (Nat × Nat) :=
  (if eligible s then [(ownId, 0)] else [])
    ++ (s.fabric.links.filter (fun p => p.2.up && p.2.peerEligible && p.2.peerSystem == some (systemId s))).map
      (fun p => (p.2.peerId, 0))

/-- MAJOR and MINOR of the firmware that runs (R344, R496). -/
def fwMajor (s : State) : Nat := s.boot.fw.version / 2 ^ 24 % 256
/-- See `fwMajor`. -/
def fwMinor (s : State) : Nat := s.boot.fw.version / 2 ^ 16 % 256

/-- The announcement this unit sends (R344). -/
def announcement (s : State) : FabricMsg :=
  .announce (BitVec.ofNat 48 ownId) (BitVec.ofNat 16 (systemId s))
    (if s.roll.numbered then some (Fin.ofNat 1024 s.roll.unit) else none)
    (if s.roll.admitted then s.roll.incarnation else s.roll.lastIncarnation) s.roll.admitted
    (fwMajor s) (fwMinor s)
    s.boot.fw.skovMin s.boot.fw.skovMax
    (s.roll.masterId.map (fun m => (BitVec.ofNat 48 m.1, Fin.ofNat 1024 m.2)))
    (if s.roll.master then s.epoch.live else s.fabric.systemEpoch)
    (eligible s) ((lowestMaster (eligibleIds s)).map (fun m => BitVec.ofNat 48 m.1))

/-- A ROLL cell; it uses no unit field (R325, R344). -/
def rollCell (m : FabricMsg) : TxCell := { type := cRoll, msg := m }

/-- Put a ROLL cell on each link of a list. -/
def rollTo (m : FabricMsg) : List Nat → State → State
  | [], s => s
  | n :: ns, s => rollTo m ns (pushCell n (rollCell m) s)

/-- Links that are up. -/
def upLinks (s : State) : List Nat := (s.fabric.links.filter (fun p => p.2.up)).map (fun p => p.1)

/-- ROLL_ANNOUNCE: every 1 ms on each link that is up (R344). -/
def execRollAnnounce (s : State) : Host.Outcome State Fault Refusal :=
  .next (if fabricOn s ∧ s.roll.announcedAt + psMs ≤ s.now then
      let s1 := followMaster s
      rollTo (announcement s1) (upLinks s1) { s1 with roll := { s1.roll with announcedAt := s1.now } }
    else s)

/-- What this unit's own join request says (R346, R348). -/
def ownJoin (s : State) : JoinInfo :=
  { id := BitVec.ofNat 48 ownId
    number := if rwField s .fabric 3 10 10 = 1 then some (Fin.ofNat 1024 (rwField s .fabric 3 9 0)) else none
    major := fwMajor s, minor := fwMinor s
    levelMin := s.boot.fw.skovMin, levelMax := s.boot.fw.skovMax
    incarnation := s.roll.lastIncarnation, epoch := s.epoch.live, holdsFrames := !(heldEpochs s).isEmpty }

/-- Two generations change places: the live epoch's number has changed its parity and the live tables stay. -/
def swapBanks (s : State) : State :=
  { s with
    bank0 := s.bank1
    bank1 := s.bank0
    l2 := { s.l2 with entries := s.l2.entries.map (fun p => (p.1, { p.2 with c0 := p.2.c1, c1 := p.2.c0 })) }
    routes := { s.routes with
      slices := s.routes.slices.map (fun p => (p.1, p.2.map (fun r => { r with r0 := r.r1, r1 := r.r0 })))
      queue0 := s.routes.queue0.map (fun p => { p with route := { p.route with r0 := p.route.r1, r1 := p.route.r0 } })
      queue1 := s.routes.queue1.map (fun p => { p with route := { p.route with r0 := p.route.r1, r1 := p.route.r0 } }) } }

/-- Take an epoch number as the live one; the live tables stay as they are (R348). -/
def takeEpoch (e : Nat) (s : State) : State :=
  let s1 := if e % 2 = s.epoch.live % 2 then s else swapBanks s
  { s1 with epoch := { s1.epoch with
      live := e
      pipeEpoch := ((List.range 32).map (fun p => (p, e))).filter (fun p => p.2 != 0) } }

/-- This unit is admitted (R342, R348): its streams start at 0, and no credit of an earlier admission stands. -/
def becomeAdmitted (unit inc epoch level : Nat) (atMaster : Bool) (s : State) : State :=
  let s1 := if (heldEpochs s).isEmpty then takeEpoch epoch s else s
  raiseAt (blockPlace .fabric) Ev.rollJoined ownId (unit + inc * 2 ^ 10 + b2n atMaster * 2 ^ 18)
    { s1 with
      fabric := { s1.fabric with
        voqs := []
        received := []
        granted := [] }
      roll := { s1.roll with
        unit := unit, numbered := true, admitted := true, incarnation := inc, lastIncarnation := inc
        systemLevel := level, nextSeq := [] } }

/-- Record an assignment (R345, R347). -/
def recordAssignment (id unit inc minor : Nat) (s : State) : State :=
  followBeats { s with roll := { s.roll with
      given := mset 0 s.roll.given unit (inc + 1)
      admittedIds := s.roll.admittedIds.filter (fun a => a.2.1 != unit) ++ [(id, unit, minor)] } }

/-- The incarnation of a number's next admission: the record plus 1, or, with no record, what the unit last held plus 1
(R347). -/
def nextIncarnation (s : State) (unit announced : Nat) : Nat :=
  match mget 0 s.roll.given unit with
  | 0 => (announced + 1) % 256
  | r => r % 256

/-- Whether a link tells of a planned lower ID that may be master: its peer, or one beside the peer (R345). -/
def lowerBeside (s : State) (x : LinkSt) : Bool :=
  let below := fun (id : Nat) => decide (id < ownId) && (planned s id).isSome
  x.up && x.peerSystem == some (systemId s) && ((x.peerEligible && below x.peerId) || (match x.peerLowest with
    | some id => below id
    | none => false))

/-- Whether this unit starts the system: eligible, planned, no master in view, no lower ID of the plan heard of that may
be master (R345). -/
def coldMaster (s : State) : Option Nat :=
  if eligible s ∧ s.roll.masterId.isNone ∧ ¬ (s.fabric.links.any (fun p => lowerBeside s p.2)) then planned s ownId
  else none

/-- JOIN_RETRY: a unit without an admission starts the system, or sends its request (R345, R346, R348). -/
def execJoinRetry (s : State) : Host.Outcome State Fault Refusal :=
  .next (if ¬ fabricOn s ∨ s.roll.admitted ∨ s.now < s.roll.joinAt + psMs
      ∨ flipsOf s .fabric 2 ≠ 0 ∨ flipsOf s .fabric 3 ≠ 0 then s
    else
      let s0 := followMaster { s with roll := { s.roll with joinAt := s.now } }
      match coldMaster s0 with
      | some u =>
        let inc := nextIncarnation s0 u s0.roll.lastIncarnation
        followMaster (recordAssignment ownId u inc (fwMinor s)
          (becomeAdmitted u inc s0.epoch.live 1 true s0))
      | none =>
        match s0.fabric.links.find? (fun p => p.2.up && p.2.peerNumbered && p.2.peerSystem == some (systemId s0)) with
        | none => s0
        | some p => pushCell p.1 (rollCell (.join (ownJoin s0))) s0)

/-- Versions and levels are compatible (R349). -/
def versionOk (s : State) (j : JoinInfo) : Bool :=
  let minors := j.minor :: fwMinor s :: s.roll.admittedIds.map (fun a => a.2.2)
  j.major == fwMajor s
    && decide (minors.foldl max 0 - minors.foldl min j.minor ≤ 1)
    && decide (j.levelMin ≤ s.roll.systemLevel) && decide (s.roll.systemLevel ≤ j.levelMax)

/-- The reason for which a request is refused (R348, R446); 0 where it is admitted. -/
def joinReason (s : State) (j : JoinInfo) : Nat :=
  match planned s j.id.toNat with
  | none => 1
  | some u =>
    if s.roll.admittedIds.any (fun a => a.1 == j.id.toNat || a.2.1 == u) then 2
    else if j.number.isSome ∧ (j.number.map (fun n => n.val)) ≠ some u then 3
    else if ¬ versionOk s j then 4
    else if j.holdsFrames ∧ j.epoch ≠ s.epoch.live then 5
    else 0

/-- The master admits a unit: the assignment goes to every live link and back over the request's link. -/
def admitUnit (link u : Nat) (j : JoinInfo) (s : State) : State :=
  let inc := nextIncarnation s u j.incarnation
  let m := FabricMsg.assign j.id (Fin.ofNat 1024 u) inc s.epoch.live s.roll.systemLevel j.minor
  let links := link :: ((liveLinks s).map (fun p => p.2)).filter (fun n => n != link)
  raiseAt (blockPlace .fabric) Ev.rollJoined j.id.toNat (u + inc * 2 ^ 10 + 2 ^ 18)
    (rollTo m links (recordAssignment j.id.toNat u inc j.minor s))

/-- JOIN_REQUEST: the master decides its oldest request (R346 to R348). -/
def execJoinRequest (s : State) : Host.Outcome State Fault Refusal :=
  .next (match s.roll.requests with
    | [] => s
    | r :: rs =>
      let j := r.2.2
      let s1 := { s with roll := { s.roll with requests := rs } }
      let asked := (j.number.map (fun n => n.val)).getD 0
      if ¬ s1.roll.master then s1
      else match joinReason s1 j, planned s1 j.id.toNat with
        | 0, some u => admitUnit r.2.1 u j s1
        | reason, _ =>
          raiseAt (blockPlace .fabric) Ev.rollRefused j.id.toNat (reason + asked * 2 ^ 3 + 2 ^ 13)
            (rollTo (.refuse j.id reason asked) [r.2.1] s1))

/-- BEAT_SEND: a BEAT to every unit the route table can reach, every beat_interval (R352). -/
def execBeatSend (s : State) : Host.Outcome State Fault Refusal :=
  .next (if fabricOn s ∧ s.roll.admitted ∧ s.roll.beatAt + rwlField s .fabric 4 9 0 * psUs ≤ s.now then
      let m := FabricMsg.beat (Fin.ofNat 1024 s.roll.unit) s.roll.incarnation (oldestOf (heldEpochs s))
      (List.range 1024).foldl (fun t d =>
        if routeMask t false d = 0 then t
        else (sprayCell (routeMask t false d) { type := cBeat, dest := d, source := t.roll.unit, msg := m } t).2)
        { s with roll := { s.roll with beatAt := s.now } }
    else s)

/-! ## ROLL and BEAT cells received -/

/-- Whether an announcement differs from the one that admitted a link (R330). -/
def announcementDiffers (x : LinkSt) (sys : Nat) (number : Option Nat) (inc : Nat) : Bool :=
  x.peerSystem != some sys || number != some x.peerUnit || inc != x.peerIncarnation

/-- What an announcement says that this unit follows (R344). -/
structure Announced where
  id : Nat
  sys : Nat
  number : Option Nat
  inc : Nat
  adm : Bool
  master : Option (Nat × Nat)
  epoch : Nat
  eligible : Bool
  lowest : Option Nat
deriving DecidableEq, Repr

/-- What a link knows of its peer after an announcement. -/
def LinkSt.hear (x : LinkSt) (a : Announced) (ours : Bool) : LinkSt :=
  { x with
    peerId := a.id, peerSystem := some a.sys, peerNumbered := a.number.isSome, peerUnit := a.number.getD 0
    peerIncarnation := a.inc, peerMaster := a.master, peerEligible := a.eligible, peerLowest := a.lowest
    toward := if ours && a.number.isSome then a.number else x.toward }

/-- DATA cells that wait on links are not sent: the unit has lost its admission (R354). -/
def stopData : List Nat → State → State
  | [], s => s
  | n :: ns, s =>
    let x := linkOfNo s n
    stopData ns (oweCredits (x.waiting.filter (fun c => c.type == cData))
      (setLink n { x with waiting := x.waiting.filter (fun c => c.type != cData) } s))

/-- The unit learns that it is no longer admitted: it stops sending DATA and joins again (R354). -/
def loseAdmission (s : State) : State :=
  stopData (s.fabric.links.map (fun p => p.1)) { s with roll := { s.roll with admitted := false } }

/-- Whether a number is this unit's, held by another ID (R354; notes/assumptions 148). -/
def takesOwnNumber (s : State) (id unit : Nat) : Bool := s.roll.numbered && unit == s.roll.unit && id != ownId

/-- What an admitted peer's incarnation does: whether the announcement is used, and the state (R342). -/
def hearIncarnation (a : Announced) (ours : Bool) (s : State) : Bool × State :=
  match a.number with
  | some u => if ours && a.adm && !takesOwnNumber s a.id u then checkIncarnation u a.inc s else (true, s)
  | none => (true, s)

/-- What an announcement of this unit's system tells of the system: the master's epoch, and whether this unit's own number
has gone to another (R354, R358). -/
def hearSystem (a : Announced) (s : State) : State :=
  let s1 := { s with fabric := { s.fabric with
    systemEpoch := if a.master.isSome then a.epoch else s.fabric.systemEpoch } }
  if a.adm ∧ a.number.any (takesOwnNumber s1 a.id) then loseAdmission s1 else s1

/-- The link enters the live set where its peer is numbered and admitted (R323). -/
def enterLive (n : Nat) (a : Announced) (s : State) : State :=
  match a.number with
  | none => followMaster s
  | some u =>
    if ¬ a.adm ∨ (linkOfNo s n).live then followMaster s
    else
      let s1 := setLink n { linkOfNo s n with live := true } s
      followRoutes (followMaster (raiseAt (blockPlace (.skov n)) Ev.linkUp
        (n + linkSlot s1 n * 2 ^ 9 + u * 2 ^ 15) a.inc s1))

/-- An announcement on a link (R323, R330, R342, R345, R354, R358): its incarnation first, then what it says of the link
and the system; one of a stale incarnation is ignored. -/
def takeAnnouncement (n : Nat) (a : Announced) (s : State) : State :=
  let x := linkOfNo s n
  let ours := a.sys == systemId s
  let c := hearIncarnation a ours s
  if x.live ∧ announcementDiffers x a.sys a.number a.inc then killLink n 3 c.2
  else if ¬ c.1 then c.2
  else
    let s1 := setLink n ((linkOfNo c.2 n).hear a ours) c.2
    if ours then enterLive n a (hearSystem a s1)
    else if x.peerSystem = some a.sys then s1
    else raise .fabric Ev.skovForeignPeer (n + a.sys * 2 ^ 9) s1

/-- A request enters the master's list: arrival order, and order of ID within a clock (R346). -/
def insertRequest (r : Nat × Nat × JoinInfo) : List (Nat × Nat × JoinInfo) → List (Nat × Nat × JoinInfo)
  | [] => [r]
  | x :: xs =>
    if x.1 = r.1 ∧ r.2.2.id.toNat < x.2.2.id.toNat then r :: x :: xs else x :: insertRequest r xs

/-- A join request on its way (R333, R346): decided here by the master, or passed toward it, by the joiner's neighbour
as a source and by a later unit as a relay. -/
def takeJoin (n : Nat) (c : TxCell) (j : JoinInfo) (s : State) : State :=
  if s.roll.master then
    oweCredit (creditOf n c) { s with roll := { s.roll with
      requests := insertRequest (s.now, n, j) s.roll.requests } }
  else match s.roll.masterId with
    | none => oweCredit (creditOf n c) s
    | some m =>
      let relay := (linkOfNo s n).live
      let s1 := { s with roll := { s.roll with
        joins := (s.roll.joins.filter (fun p => p.1 != j.id.toNat)) ++ [(j.id.toNat, n)] } }
      if relay ∧ 3 ≤ c.hops then oweCredit (creditOf n c) (dropCell s1)
      else match leastLoaded s1 ((usable s1 (routeMask s1 relay m.2) m.2).filter (fun k => k != n)) with
        | none => oweCredit (creditOf n c) (if relay then dropCell s1 else s1)
        | some k =>
          if relay then pushCell k { rollCell (.join j) with
            hops := c.hops + 1
            owes := creditOf n c } s1
          else oweCredit (creditOf n c) (pushCell k (rollCell (.join j)) s1)

/-- The link a reply to an ID goes back over, once. -/
def replyLink (id : Nat) (s : State) : List Nat × State :=
  (((s.roll.joins.filter (fun p => p.1 == id)).map (fun p => p.2)),
   { s with roll := { s.roll with joins := s.roll.joins.filter (fun p => p.1 != id) } })

/-- An assignment (R345, R346, R348): new to this unit, it is recorded and passed on. -/
def takeAssign (n id unit inc epoch level minor : Nat) (m : FabricMsg) (s : State) : State :=
  if mget 0 s.roll.given unit = inc + 1 ∧ s.roll.admittedIds.any (fun a => a.1 == id && a.2.1 == unit) then s
  else
    let r := replyLink id (recordAssignment id unit inc minor s)
    let s1 := if id = ownId ∧ ¬ r.2.roll.admitted then becomeAdmitted unit inc epoch level false r.2
      else if takesOwnNumber r.2 id unit then loseAdmission r.2 else r.2
    let links := r.1 ++ ((liveLinks s1).map (fun p => p.2)).filter (fun k => k != n && !r.1.contains k)
    followMaster (rollTo m links s1)

/-- A refusal (R348, R354). -/
def takeRefuse (id reason asked : Nat) (m : FabricMsg) (s : State) : State :=
  if id = ownId then
    followMaster (raiseAt (blockPlace .fabric) Ev.rollRefused id (reason + asked * 2 ^ 3) (loseAdmission s))
  else
    let r := replyLink id s
    rollTo m r.1 r.2

/-- A BEAT for this unit (R342, R352, R356). -/
def takeBeat (u inc : Nat) (oldest : Option Nat) (s : State) : State :=
  let c := checkIncarnation u inc s
  if ¬ c.1 then c.2
  else followBeats (setPeer u { peerOf c.2 u with
    heardAt := s.now, beatSeen := true, oldestEpoch := oldest.getD c.2.epoch.live } c.2)

/-- What a ROLL cell says. -/
def takeRoll (n : Nat) (c : TxCell) (s : State) : State :=
  let done := oweCredit (creditOf n c)
  match c.msg with
  | .announce id sys number inc adm _ _ _ _ master epoch may lowest =>
    done (takeAnnouncement n
      { id := id.toNat, sys := sys.toNat, number := number.map (fun u => u.val), inc := inc, adm := adm
        master := master.map (fun p => (p.1.toNat, p.2.val)), epoch := epoch, eligible := may
        lowest := lowest.map (fun i => i.toNat) } s)
  | .join j => takeJoin n c j s
  | .assign id unit inc epoch level minor => done (takeAssign n id.toNat unit.val inc epoch level minor c.msg s)
  | .refuse id reason asked => done (takeRefuse id.toNat reason asked c.msg s)
  | .beat _ _ _ => done s
  | .plain => done s

/-! ## Cells received (R324 to R334) -/

/-- The header of a received cell as a cell to send, with its acknowledgement and credits (R325). -/
def parseCell (bs : List Byte) (msg : FabricMsg) : TxCell × Bool × Nat × Nat × Nat :=
  let w0 := beAt bs 0 4
  let w1 := beAt bs 4 4
  let w2 := beAt bs 8 4
  let w3 := beAt bs 12 4
  ({ type := fieldOf w0 31 28, hops := fieldOf w0 27 26, seq := fieldOf w0 23 12
     dest := fieldOf w1 31 22, source := fieldOf w1 21 12, first := bitOf w1 10, last := bitOf w1 9
     length := fieldOf w1 8 0, tag := fieldOf w2 31 8, grant := fieldOf w3 31 16, valiant := bitOf w3 15
     index := fieldOf w3 14 8, payload := bytesAt bs 16 256, msg := msg },
   bitOf w1 11, fieldOf w0 11 0, fieldOf w2 7 5, fieldOf w2 4 0)

/-- Take an acknowledgement: cells before ack_seq leave the replay buffer (R328). -/
def takeAck (n ack : Nat) (s : State) : State :=
  let x := linkOfNo s n
  let keep := x.replay.filter (fun c => decide ((ack + 4095 - c.seq) % 4096 ≥ 2048))
  if keep.length = x.replay.length then s
  else setLink n { x with replay := keep, stuck := 0 } s

/-- Resend cells in order. -/
def resend (n : Nat) : List TxCell → State → State
  | [], s => s
  | c :: cs, s => resend n cs (putCell n c s)

/-- A NAK: resend from the named cell; a NAK after 16 replays in a row that did not advance kills the link (R328,
R330). -/
def takeNak (n : Nat) (s : State) : State :=
  let x := linkOfNo s n
  if 16 ≤ x.stuck then killLink n 2 s
  else resend n x.replay (perfEvent { code := 0x043, master := 0x37 }
    (setLink n { x with replays := (x.replays + 1) % 2 ^ 32, stuck := x.stuck + 1 } s))

/-- Entries of 8 bytes in a payload's used part. -/
def entries8 (c : TxCell) : List Nat :=
  (List.range (min 32 (c.length / 8))).map (fun i => beAt c.payload (8 * i) 8)

/-- Take REQUEST entries of a source (R335). -/
def takeRequests (u : Nat) : List Nat → State → State
  | [], s => s
  | v :: vs, s =>
    let q := s.roll.unit * 1024 + fieldOf v 63 54
    takeRequests u vs { s with fabric := { s.fabric with
      received := mset 0 s.fabric.received (streamKey u q) (fieldOf v 31 0) } }

/-- Take GRANT entries of a destination (R337). -/
def takeGrants (u : Nat) : List Nat → State → State
  | [], s => s
  | v :: vs, s =>
    let q := u * 1024 + fieldOf v 63 54
    let x := voqOf s q
    let fresh := (List.range (fieldOf v 37 32)).map (fun i => ((fieldOf v 53 38 + i) % 65536, s.now, 4096))
    takeGrants u vs (setVoq q { x with grants := x.grants ++ fresh } s)

/-- A routed cell for this unit. -/
def consumeCell (c : TxCell) (s : State) : State :=
  if c.type = cData then dataCell c.source c.tag c.index c.last c.grant (c.payload.take c.length) s
  else if c.type = cRequest then takeRequests c.source (entries8 c) s
  else if c.type = cGrant then takeGrants c.source (entries8 c) s
  else match c.msg with
    | .beat u inc oldest => takeBeat u.val inc oldest s
    | _ => s

/-- A routed cell for another unit (R333, R334, R353): it waits for a link's credit, and holds its own partition's until
it is sent on (R329). -/
def relayCell (n : Nat) (c : TxCell) (s : State) : State :=
  if 3 ≤ c.hops then oweCredit (creditOf n c) (dropCell s)
  else match placeCell (routeMask s true c.dest) { c with
      hops := c.hops + 1
      owes := creditOf n c } s with
    | (some m, s1) => pump m (perfEvent { code := 0x042, master := 0x37 } s1)
    | (none, s1) => oweCredit (creditOf n c) (dropCell s1)

/-- Whether a cell's header says nothing a receiver can use: hops 0, a type not assigned (R326, R334), a length or a
position outside what R325 gives (notes/assumptions 147). -/
def cellWrong (c : TxCell) : Bool :=
  c.hops == 0 || decide (cWithdraw < c.type) || decide (256 < c.length) || (c.type == cData && decide (64 < c.index))

/-- A numbered cell that the link accepts. -/
def acceptCell (n : Nat) (c : TxCell) (s : State) : State :=
  if cellWrong c then oweCredit (creditOf n c) (dropCell s)
  else if c.type = cRoll then takeRoll n c s
  else if c.type = cWithdraw then followRoutes (setLink n { linkOfNo s n with withdrawn := withdrawnOf c.payload } s)
  else
    let s1 := if (peerOf s c.source).liveInc then setPeer c.source { peerOf s c.source with heardAt := s.now } s else s
    if c.dest = s.roll.unit ∧ s.roll.numbered then oweCredit (creditOf n c) (consumeCell c s1) else relayCell n c s1

/-- What an intact cell brings to the link layer, before its content: acknowledgement, credits, the time. -/
def linkHeard (n : Nat) (ackValid : Bool) (ack part count : Nat) (s : State) : State :=
  let s1 := if ackValid then takeAck n ack s else s
  let x := linkOfNo s1 n
  let s2 := setLink n { x with
    heardAt := s.now
    credits := mset 0 x.credits part (mget 0 x.credits part + count) } s1
  let u := x.peerUnit
  if x.peerNumbered ∧ x.peerSystem = some (systemId s) ∧ (peerOf s2 u).liveInc then
    setPeer u { peerOf s2 u with heardAt := s.now } s2
  else s2

/-- CELL_RECEIVE (R51, R324 to R334). -/
def execCellReceive (link : LaneId) (bytes : List Byte) (msg : FabricMsg) (flip : Bool) (s : State) :
    Host.Outcome State Fault Refusal :=
  let n := link.val
  let x := linkOfNo s n
  .next (if ¬ x.up ∨ ¬ fabricOn s then s
    else if bytes.length ≠ 276 ∨ beAt bytes 272 4 ≠ crc32c 0 (bytes.take 272) then
      sendLinkCell n true (setLink n { x with crcErrors := (x.crcErrors + 1) % 2 ^ 32 } s)
    else
      let p := parseCell bytes msg
      let c := p.1
      let s1 := linkHeard n p.2.1 p.2.2.1 p.2.2.2.1 p.2.2.2.2 (perfEvent { code := 0x041, master := 0x37 } s)
      if c.type = cLink then
        pump n (if bitOf (byteAt c.payload 0).toNat 0 then takeNak n s1 else s1)
      else if c.seq ≠ (linkOfNo s1 n).rxSeq then sendLinkCell n true s1
      else
        let s2 := setLink n { linkOfNo s1 n with rxSeq := (c.seq + 1) % 4096 } s1
        pump n (if flip then oweCredit (creditOf n c) (dropCell s2) else acceptCell n c s2))

/-- LINK_CELL_EMIT: with nothing else to send, a LINK cell at least every 1 µs (R330, R384); a replay-buffer cell that
fails parity when it is read for sending kills the link (R431). -/
def execLinkCellEmit (link : LaneId) (flip : Bool) (s : State) : Host.Outcome State Fault Refusal :=
  let n := link.val
  .next (if flip ∧ (linkOfNo s n).replay ≠ [] then killLink n 4 s
    else if (linkOfNo s n).up ∧ fabricOn s ∧ ¬ txAsleep s n then
      let s1 := pump n s
      if (linkOfNo s1 n).sentAt + psUs ≤ s1.now then sendLinkCell n false s1 else s1
    else s)

/-- LINK_NO_CELL_TIMEOUT: no cell for 10 µs (R330, R384), after every arrival of the clock (R55). -/
def execLinkNoCellTimeout (link : LaneId) (s : State) : Host.Outcome State Fault Refusal :=
  let n := link.val
  let x := linkOfNo s n
  .next (if x.up ∧ ¬ arrivalsWait s ∧ ¬ (laneOf s n).rxRest ∧ x.heardAt + 10 * psUs ≤ s.now then killLink n 1 s else s)

end Sys2Proof.Machine
end

