-- ==== Sys2Proof/Machine/Power.lean ====
section
/-!
DEFINITION. Switching domains off and on: what stops with each and what its registers then hold (R25, R277, R470,
R471, R487, R493, R531, R533).
-/
namespace Sys2Proof.Machine

/-- The switchable domains in the order of R471. -/
def powerOrder : List Nat :=
  [3, 1, 2, 10, 11, 8, 9, 12, 13, 4, 5, 6, 7, 22, 23, 24, 25, 26, 27, 28, 29, 14, 15, 16, 17, 18, 19, 20, 21]

/-- A domain's registers hold their Reset values again (R25). -/
def resetDomainRegs (d : Nat) (s : State) : State :=
  let keep := fun (m : SMap Nat) => m.filter (fun p => p.1 / 2 ^ 23 != d)
  { s with
    regs := { s.regs with rw := keep s.regs.rw, parity := s.regs.parity.filter (fun p => p.1 / 2 ^ 27 != d) }
    bank0 := { s.bank0 with rwl := keep s.bank0.rwl }
    bank1 := { s.bank1 with rwl := keep s.bank1.rwl } }

/-- End the holds of frames a stopped MAC still had to send. -/
def dropTx : List TxFrame → State → State
  | [], s => s
  | f :: fs, s => dropTx fs (match f.desc with
    | some i => endDesc i s
    | none => s)

/-- Stop the MACs of a list of lanes. -/
def dropMacs : List Nat → State → State
  | [], s => s
  | n :: ns, s => dropMacs ns (setMac n {} (dropTx (macOf s n).queue s))

/-- End the holds of the frames in a pipe's egress. -/
def dropEgressItems : List EgressItem → State → State
  | [], s => s
  | it :: its, s => dropEgressItems its (endDesc it.desc s)

/-- Stop a list of pipes: their lanes are DISABLED and the frames in them are gone (R487, R531). -/
def stopPipes : List Nat → State → State
  | [], s => s
  | p :: ps, s =>
    let s1 := disableLanes (pipeLanes p) s
    let s2 := dropMacs (pipeLanes p) (dropEgressItems (pipeOf s1 p).egress s1)
    let s3 := setPipe p {} s2
    stopPipes ps { s3 with sched := { s3.sched with
      bundles := s3.sched.bundles.filter (fun b => b.1 / 65536 != p)
      ports := s3.sched.ports.filter (fun b => b.1 / 16 != p)
      gates := s3.sched.gates.filter (fun b => b.1 / 16 != p)
      wheel := s3.sched.wheel.filter (fun w => w.1 / 65536 != 16 + p)
      wheelAt := s3.sched.wheelAt.filter (fun w => w.1 / 65536 != 16 + p)
      policers := s3.sched.policers.filter (fun c => c.1 / 8192 != p)
      foreign := mdel s3.sched.foreign p } }

/-- The counts and searches of the route blocks of PD08 or PD09 hold their Reset value (R25, R223, R224, R243). -/
def clearRouteCounts (d : Nat) (s : State) : State :=
  let r : RouteSt := { s.routes with
    moves := mdel s.routes.moves (d - 8)
    searches := s.routes.searches.filter (fun p => p.1 / 32 != d - 8)
    overruns := s.routes.overruns.filter (fun p => p.1 / 32 != d - 8) }
  if d ≠ 8 then { s with routes := r }
  else { s with
    routes := r
    l2 := { s.l2 with
      removed := 0
      learned := 0
      moves := 0
      evictions := 0
      blocked := 0
      drops := 0
      conflicts := 0
      rehashDrops := 0 } }

/-- What stops with a domain, and the read-only registers that hold their Reset value from then on (R25, R531). -/
def stopDomain (d : Nat) (s : State) : State :=
  if 4 ≤ d ∧ d ≤ 7 then stopPipes ((List.range 8).map (fun i => 8 * (d - 4) + i)) s
  else if d = 13 then
    { s with
      portStats := []
      flows := []
      whey := {}
      mirror := {}
      perf := {} }
  else if d = 8 ∨ d = 9 then clearRouteCounts d s
  else if d = 12 then { s with qm := { s.qm with misses := 0, prefetches := 0, evictions := 0 } }
  else if 14 ≤ d ∧ d ≤ 21 then caveFail (d - 14) 0 s
  else if 22 ≤ d then
    let t := d - 22
    let s1 := dropMacs (tileLanes t) (disableLanes (tileLanes t) s)
    setEngine (eTile t 1) {} (setEngine (eTile t 0) {}
      { s1 with tilePll := if bitOf s1.tilePll t then s1.tilePll - 2 ^ t else s1.tilePll })
  else if d = 1 then setEngine eTriad {} s
  else if d = 2 then setEngine eTime {} { s with time := { tileError := s.time.tileError } }
  else s

/-- Switch a domain off. -/
def domainOff (d : Nat) (s : State) : State :=
  if ¬ domainOn s d then s
  else
    let s1 := resetDomainRegs d (stopDomain d s)
    { s1 with power := { s1.power with on := s1.power.on - 2 ^ d } }

/-- Switch a list of domains off. -/
def domainsOff : List Nat → State → State
  | [], s => s
  | d :: ds, s => domainsOff ds (domainOff d s)

/-- The pipes of a list run in the live generation, which is loaded from the Cave shadows (R487). -/
def pipesLive : List Nat → State → State
  | [], s => s
  | p :: ps, s => pipesLive ps (setPipe p { pipeOf s p with
      paused := false
      loading := false }
    (reloadPipe p { s with epoch := { s.epoch with pipeEpoch := mset 0 s.epoch.pipeEpoch p s.epoch.live } }))

/-- A tile that starts measures its path delay: its copy of the time keeps a fixed error of at most 50 ps (R406). -/
def measureTile (t : Nat) (s : State) : State :=
  let r := freeBelow 6553 s
  { r.2 with time := { r.2.time with tileError := mset 0 r.2.time.tileError t ((r.1 : Int) - 3276) } }

/-- A domain reports on (R25, R486, R487, R493). -/
def domainStart (d : Nat) (s : State) : State :=
  let s1 := { s with power := { s.power with on := s.power.on + 2 ^ d } }
  if 4 ≤ d ∧ d ≤ 7 then
    wakeLanes ((List.range 128).map (fun i => 128 * (d - 4) + i)) (pipesLive ((List.range 8).map (fun i => 8 * (d - 4) + i)) s1)
  else if 22 ≤ d ∧ d ≤ 29 then measureTile (d - 22) s1
  else s1

/-- Whether the sequencer may report a domain on now: it is wanted, off, not held by a trip, and every wanted
domain before it in the order is on (R471, R533). -/
def mayPower (s : State) (d : Nat) : Bool :=
  let before := powerOrder.takeWhile (fun x => x != d)
  powerOrder.contains d && bitOf s.power.wanted d && !domainOn s d && !(s.power.tripHold && decide (4 ≤ d))
    && before.all (fun x => !bitOf s.power.wanted x || domainOn s x || (s.power.tripHold && decide (4 ≤ x)))

end Sys2Proof.Machine
end

