-- ==== Sys2Proof/Machine/Epoch.lean ====
section
/-!
DEFINITION. Epochs: the EPOCH group (R136, R137), what a stage and a commit do in the unit and in each pipe (R57 to
R61, R193, R203, R241, R283, R307, R315, R490 to R493), and the time records of Krenus memory (R133).
-/
namespace Sys2Proof.Machine

/-! ## Time records in Krenus memory (R133) -/

/-- The trap of reading or writing a 16-byte record at an address, if any (R133). -/
def recordFault (s : State) (e : Nat) (r : Right) (a : Nat) : Option (Nat × Nat) :=
  if a % 8 ≠ 0 then some (causeDataAlign, a)
  else match accessFault s e r a 8 with
    | some f => some f
    | none => accessFault s e r (a + 8) 8

/-- The time of a record in units of 2⁻¹⁶ ns; none where nanoseconds exceeds 999,999,999. -/
def recordTime (bs : List Byte) : Option Nat :=
  let ns := leNat (bytesAt bs 8 4)
  if 1000000000 ≤ ns then none
  else some (leNat (bytesAt bs 0 8) * secUnits + ns * 65536 + leNat (bytesAt bs 12 2))

/-! ## Stages -/

/-- Whether a stage may open now: no frame of the generation it overwrites, no gate switch pending, and in a system
2 ms of drained beats of every admitted unit (R60, R315, R356). -/
def stageReady (s : State) : Bool :=
  (heldEpochs s).all (fun e => !(epochOlder e s.epoch.live && e % 2 != s.epoch.live % 2))
    && s.sched.gates.all (fun g => g.2.pending.isNone)
    && (!fabricOn s || (beatsDrained s && (match s.roll.drainedSince with
      | some t => decide (t + 2 * psMs ≤ s.now)
      | none => false)))

/-- A layer-2 entry as the new shadow generation starts with it (R203, R209). -/
def L2Entry.stage (live : Nat) (e : L2Entry) : L2Entry :=
  if live % 2 = 0 then { e with c1 := e.c0 } else { e with c0 := e.c1 }

/-- A route as the new shadow generation starts with it (R203, R234). -/
def Route.stage (live : Nat) (r : Route) : Route :=
  if live % 2 = 0 then { r with r1 := r.r0 } else { r with r0 := r.r1 }

/-- The shadow opens: it starts as a copy of the live generation (R12, R203, R204). -/
def openStage (s : State) : State :=
  let live := s.epoch.live
  let s1 := setBank (live + 1) (liveBank s) s
  { s1 with
    epoch := { s1.epoch with shadowOpen := true, stagePending := false }
    l2 := { s1.l2 with
      entries := (s1.l2.entries.map (fun p => (p.1, p.2.stage live))).filter (fun p => p.2.c0.isSome || p.2.c1.isSome) }
    routes := { s1.routes with
      slices := (s1.routes.slices.map (fun p =>
        (p.1, (p.2.map (fun r => r.stage live)).filter (fun r => r.r0.isSome || r.r1.isSome)))).filter
          (fun p => !p.2.isEmpty) } }

/-- Whether a cut-over is in progress. -/
def cuttingOver (s : State) : Bool :=
  match s.epoch.commit with
  | .cutting _ => true
  | _ => false

/-- EPOCH.STAGE: its result code and the state after it (R136, R137). -/
def epochStageOp (s : State) : Nat × State :=
  if s.epoch.shadowOpen ∨ s.epoch.stagePending ∨ cuttingOver s then (rBusy, s)
  else if stageReady s then (rOk, openStage s)
  else (rPending, { s with epoch := { s.epoch with stagePending := true } })

/-- The epoch after the live one. -/
def nextEpoch (s : State) : Nat := (s.epoch.live + 1) % 65536

/-- EPOCH.COMMIT: result code, value, state (R136, R137). -/
def epochCommitOp (s : State) : Nat × Nat × State :=
  match s.epoch.commit with
  | .none =>
    if ¬ s.epoch.shadowOpen then (rNotStaged, 0, s)
    else (rPending, nextEpoch s, { s with epoch := { s.epoch with commit := .pending } })
  | _ => (rBusy, 0, s)

/-- Placements of the fuller shuffler queue. -/
def fullerQueue (s : State) : Nat := max s.routes.queue0.length s.routes.queue1.length

/-- EPOCH.COMMIT.AT at a time in units of 2⁻¹⁶ ns: result code, value, state (R136, R137, R241). -/
def epochCommitAtOp (due : Nat) (s : State) : Nat × Nat × State :=
  let busy := match s.epoch.commit with
    | .pending => true
    | .scheduled _ => true
    | _ => false
  if busy then (rBusy, 0, s)
  else if ¬ s.epoch.shadowOpen then (rNotStaged, 0, s)
  else if due ≤ coreTime s then (rLate, 0, s)
  else if due < coreTime s + (500 * fullerQueue s + 10000) * 65536 then (rBusy, 0, s)
  else (rPending, nextEpoch s, { s with epoch := { s.epoch with commit := .scheduled due } })

/-- A mould application whose scheduled commit is cancelled is over (R492). -/
def endMould (s : State) : State :=
  if s.boot.committing = some false then { s with boot := { s.boot with phase := .running, committing := none } } else s

/-- EPOCH.CANCEL: result code and state (R136, R137). A commit whose time is reached proceeds. -/
def epochCancelOp (s : State) : Nat × State :=
  match s.epoch.commit with
  | .scheduled due =>
    if due ≤ coreTime s then (rNotFound, s) else (rOk, endMould { s with epoch := { s.epoch with commit := .none } })
  | _ => (rNotFound, s)

/-- EPOCH.STATUS's value, also EPOCH_STATE (R136, R491). -/
def epochStatus (s : State) : Nat :=
  s.epoch.live + b2n s.epoch.shadowOpen * 2 ^ 16 + b2n s.epoch.stagePending * 2 ^ 17 + b2n (cuttingOver s) * 2 ^ 18
    + b2n (match s.epoch.commit with
      | .scheduled _ => true
      | _ => false) * 2 ^ 19

/-- EPOCH.STAGE kd (R136). -/
def execEpochStage (e : EngineId) (kd : KReg) (s : State) : Host.Outcome State Fault Refusal :=
  .next (runDev e .epoch (encDev 0x29 0 kd 0 0 0) kd (fun s => .done (result (epochStageOp s).1 0) (epochStageOp s).2) s)

/-- EPOCH.COMMIT kd (R136). -/
def execEpochCommit (e : EngineId) (kd : KReg) (s : State) : Host.Outcome State Fault Refusal :=
  .next (runDev e .epoch (encDev 0x29 1 kd 0 0 0) kd (fun s =>
    .done (result (epochCommitOp s).1 (epochCommitOp s).2.1) (epochCommitOp s).2.2) s)

/-- EPOCH.COMMIT.AT kd, ka (R133, R136). -/
def execEpochCommitAt (e : EngineId) (kd ka : KReg) (s : State) : Host.Outcome State Fault Refusal :=
  .next (runDev e .epoch (encDev 0x29 2 kd ka 0 0) kd (fun s =>
    let a := (kget s e ka).toNat
    match recordFault s e .read a with
    | some f => .trap f.1 f.2
    | none => match recordTime (loadBytes s e a 16) with
      | none => .done (result rRange 0) s
      | some due => .done (result (epochCommitAtOp due s).1 (epochCommitAtOp due s).2.1) (epochCommitAtOp due s).2.2) s)

/-- EPOCH.CANCEL kd (R136). -/
def execEpochCancel (e : EngineId) (kd : KReg) (s : State) : Host.Outcome State Fault Refusal :=
  .next (runDev e .epoch (encDev 0x29 3 kd 0 0 0) kd (fun s =>
    .done (result (epochCancelOp s).1 0) (epochCancelOp s).2) s)

/-- EPOCH.STATUS kd (R136). -/
def execEpochStatus (e : EngineId) (kd : KReg) (s : State) : Host.Outcome State Fault Refusal :=
  .next (runDev e .epoch (encDev 0x29 4 kd 0 0 0) kd (fun s => .done (result rOk (epochStatus s)) s) s)

/-! ## A commit takes effect in the unit -/

/-- The lane of a MACn or SKOVn block's register number, with whether it is a link's; none for other blocks (R28). -/
def tileBlockLane (key : Nat) : Option (Bool × Nat) :=
  let d := key / 2 ^ 23
  let b := key / 2 ^ 14 % 512
  if d < 22 ∨ 30 ≤ d ∨ b < 128 ∨ 256 ≤ b then none
  else some (decide (192 ≤ b), 64 * (d - 22) + b % 64)

/-- Whether a generation's arrangement has the MAC or link block of a lane (R29, R391). -/
def blockLive (s : State) (epoch : Nat) (link : Bool) (n : Nat) : Bool :=
  let m := laneModeAt s epoch n
  if link then m == 0xF else 1 ≤ m && m ≤ 0xC

/-- The MAC and link blocks a generation's arrangement does not have keep no field for a later one (R29). -/
def cleanBlocks (epoch : Nat) (s : State) : State :=
  let b := bankOf s epoch
  setBank epoch { b with rwl := b.rwl.filter (fun p => match tileBlockLane p.1 with
    | some l => blockLive s epoch l.1 l.2
    | none => true) } s

/-- The rule sets whose root differs between two generations. -/
def changedRoots (s : State) (old new : Nat) : List Nat :=
  (List.range 256).filter (fun rs => tblGet s old 0x07 rs 0 != tblGet s new 0x07 rs 0)

/-- Whether an ingress program of a pipe in a generation walks one of a list of rule sets. -/
def walksAny (s : State) (epoch p : Nat) (roots : List Nat) : Bool :=
  ((bankOf s epoch).tbl.filter (fun t => t.1 / 2 ^ 32 == 0x0B * 2 ^ 16 + p)).any (fun t =>
    (progOps t.2).any (fun o => o.opcode == 0x23 && roots.contains (o.imm % 256)))

/-- The pipes that run load the changed roots, and those whose walks could reach one pause (R193, R195). -/
def pausePipes (old new : Nat) (roots : List Nat) : List Nat → State → State
  | [], s => s
  | p :: ps, s => pausePipes old new roots ps
      (if roots.isEmpty || !pipeReady s p then s
      else setPipe p { pipeOf s p with
        loading := true
        paused := walksAny s old p roots || walksAny s new p roots } s)

/-- A commit that changes FRAG_SEED empties the fragment table; a seed of 0 draws one (R201, R202). -/
def reseedFrags (old new : Nat) (s : State) : State :=
  let seed := rwlFieldAt s new .frag 1 31 0
  if rwlFieldAt s old .frag 1 31 0 = seed ∧ ¬ (seed = 0 ∧ s.tree.seed = 0) then s
  else if seed ≠ 0 then { s with tree := { s.tree with seed := seed, frags := [] } }
  else
    let d := freeDraw s
    { d.2 with tree := { d.2.tree with seed := d.1.toNat % 2 ^ 32, frags := [] } }

/-- New gate lists start on the ports a commit changes. -/
def commitAllGates (old new tc : Nat) : List Nat → State → State
  | [], s => s
  | n :: ns, s => commitAllGates old new tc ns (commitGates old new tc n s)

/-- level_request in force at a commit (R349, R350). -/
def adoptLevel (s : State) : State :=
  let l := rwlField s .fabric 6 31 24
  if l = 0 ∨ ¬ s.roll.admitted then s else { s with roll := { s.roll with systemLevel := l } }

/-- Write I3C_BOOT_RESULT (R484). -/
def bootResult (outcome : Nat) (s : State) : State :=
  setRw .i3c 3 (outcome + s.boot.slot * 2 ^ 8 + s.boot.mould * 2 ^ 10 + b2n s.boot.mouldInvalid * 2 ^ 14
    + satField 16 16 s.boot.refused) s

/-- The end of a boot or mould commit: MOULD_APPLIED, and for a boot the report and the IMAGE records (R482, R484,
R492). -/
def endApplication (s : State) : State :=
  match s.boot.committing with
  | none => s
  | some isBoot =>
    let s1 := raise .starter Ev.mouldApplied (s.boot.mould + satField 4 16 s.boot.refused) { s with boot := { s.boot with
      phase := .running
      committing := none
      images := [] } }
    if isBoot then startImages s.boot.images (bootResult 1 s1) else s1

/-- EPOCH_COMMITTED: every pipe has cut over, and domains no longer enabled are switched off (R136, R493). -/
def finishCommit (wasAt : Bool) (s : State) : State :=
  let s1 := raise .epoch Ev.epochCommitted (s.epoch.live + b2n wasAt * 2 ^ 16
    + satField 17 11 ((s.now - s.epoch.effectAt) / 1000)) { s with epoch := { s.epoch with commit := .none } }
  endApplication
    (domainsOff ((powerOrder.filter (fun d => 4 ≤ d && domainOn s1 d && !bitOf s1.power.wanted d)).reverse) s1)

/-- The commit is complete once every pipe has cut over (R136). -/
def completeCommit (s : State) : State :=
  match s.epoch.commit with
  | .cutting wasAt => if (List.range 32).all (fun k => pipeEp s k == s.epoch.live) then finishCommit wasAt s else s
  | _ => s

/-! ## A pipe cuts over (R59, R193) -/

/-- Reset tokens under reset_mode (R305, R307). -/
def resetTokens (full : Bool) (burst : Nat) : Int := if full then (burst * 256 * tokenParts : Nat) else 0

/-- The bundle of a queue computes new tags (R283). -/
def newOffer (c : QCfg) (s : State) : State :=
  if c.role = 2 then setBundle c.port c.bundle { bundleRun s c.port c.bundle with offer := none } s else s

/-- What a pipe's cut-over changes for a queue (R283, R307). -/
def cutQueue (old new p q : Nat) (s : State) : State :=
  let a := qcfgAt s old q
  let b := qcfgAt s new q
  let moved := decide (a.role ≠ b.role) || decide (a.port ≠ b.port) || decide (a.bundle ≠ b.bundle)
    || decide (a.position ≠ b.position) || decide (a.gate ≠ b.gate) || decide (a.quantum ≠ b.quantum)
  let holds := decide (0 < (qst s q).depth) || s.qm.journal.any (fun j => j.1 == q)
  let s1 := if moved && holds then newOffer b (newOffer a (setQ q { qst s q with deficit := 0 } s)) else s
  if b.role = 2 ∧ b.pipe = p ∧ (a.rate ≠ b.rate ∨ a.burst ≠ b.burst) then
    setWheel q 0 (setQ q { qst s1 q with tokens := resetTokens b.resetFull b.burst, tokensAt := s1.now } s1)
  else s1

/-- The queues of a list. -/
def cutQueues (old new p : Nat) : List Nat → State → State
  | [], s => s
  | q :: qs, s => cutQueues old new p qs (cutQueue old new p q s)

/-- The egress queues of a pipe in a generation. -/
def pipeQueues (s : State) (epoch p : Nat) : List Nat :=
  ((egressQueues s epoch).filter (fun c => c.2.pipe == p)).map (fun c => c.1)

/-- The scheduler nodes of a pipe that either of two generations lists: port slot × 4,096 + bundle. -/
def pipeNodes (s : State) (old new p : Nat) : List Nat :=
  (((bankOf s old).tbl ++ (bankOf s new).tbl).filter (fun t => t.1 / 2 ^ 32 == 0x0E * 2 ^ 16 + p)).map
    (fun t => t.1 % 2 ^ 32)

/-- Bundles whose shaper changes take their reset tokens (R307). -/
def cutNodes (old new p : Nat) : List Nat → State → State
  | [], s => s
  | i :: is, s =>
    let a := NodeCfg.ofImage (tblGet s old 0x0E p i)
    let b := NodeCfg.ofImage (tblGet s new 0x0E p i)
    let port := 16 * p + i / 4096
    cutNodes old new p is (if a.rate ≠ b.rate ∨ a.burst ≠ b.burst then
        setWheel (bundleShaper port (i % 4096)) 0 (setBundle port (i % 4096) { bundleRun s port (i % 4096) with
          tokens := resetTokens b.resetFull b.burst, tokensAt := s.now } s)
      else s)

/-- The registers of a MAC that is new: its status, counters and RW fields hold their Reset values (R29, R520). -/
def resetMac (n : Nat) (s : State) : State :=
  let m := macOf s n
  let s1 := setMac n { m with
    up := false, xoffSent := false, lpiTx := false, lpiRx := false, fcWaiting := none, stopAt := 0
    backlogStop := false } s
  { s1 with
    portStats := s1.portStats.filter (fun p => p.1 / 64 != n)
    regs := { s1.regs with rw := s1.regs.rw.filter (fun p => tileBlockLane p.1 != some (false, n)) } }

/-- A lane that becomes the lowest lane of a new port or link: its block's registers hold their Reset values (R29). -/
def newPorts (old new : Nat) : List Nat → State → State
  | [], s => s
  | n :: ns, s =>
    let changed := laneModeAt s old n != laneModeAt s new n
    newPorts old new ns (if changed && blockLive s new false n then resetMac n s
      else if changed && blockLive s new true n then setLink n {} s
      else s)

/-- A pipe runs under the new generation from here. -/
def cutPipe (old new p : Nat) (s : State) : State :=
  let lanes := pipeLanes p
  let s0 := { s with triad := { s.triad with stopped := s.triad.stopped.filter (fun n =>
    !(lanes.contains n && laneModeAt s old n != laneModeAt s new n)) } }
  let s1 := dropLinks old new lanes s0
  let s2 := setPipe p { pipeOf s1 p with
      paused := false
      loading := false }
    { s1 with epoch := { s1.epoch with pipeEpoch := mset 0 s1.epoch.pipeEpoch p new } }
  let s3 := cutNodes old new p (pipeNodes s2 old new p)
    (cutQueues old new p ((pipeQueues s2 old p ++ pipeQueues s2 new p).eraseDups) s2)
  raiseConflicts old new lanes (newPorts old new lanes (moveLanes old new lanes s3))

/-! ## The commit's effect -/

/-- Pipes whose domain is off hold no frame to cut over: their blocks follow the new arrangement (R29). A faulted pipe
counts as cut over (R436). -/
def skipOffPipes (old new : Nat) : List Nat → State → State
  | [], s => s
  | p :: ps, s => skipOffPipes old new ps (if pipeReady s p then s
      else if domainOn s (4 + p / 8) then cutPipe old new p s
      else newPorts old new (pipeLanes p)
        { s with epoch := { s.epoch with pipeEpoch := mset 0 s.epoch.pipeEpoch p new } })

/-- A boot or mould commit takes effect: its mould is in force, and a boot's sets READY bit 127 (R482, R486, R492). -/
def mouldInForce (s : State) : State :=
  match s.boot.committing with
  | none => s
  | some isBoot => { s with boot := { s.boot with
      mould := s.boot.chosen
      committed := s.boot.committed || isBoot
      mouldResult := if isBoot then s.boot.mouldResult else rOk } }

/-- The ledger marks of walk errors that still count: those of the epoch in which pipes not yet cut over run (R188). -/
def keepMarks (old : Nat) (s : State) : List Nat := s.tree.errorRaised.filter (fun m => m / 256 == old)

/-- Fragment entries whose age has passed under the age that a commit replaces are gone before it (R201). -/
def dropAged (s : State) : State :=
  { s with tree := { s.tree with frags := s.tree.frags.filter (fun p => !fragExpired s s.now p.2) } }

/-! ## The route table the firmware writes (R331, R332) -/

/-- The slots of the links that lead to a unit, as a mask. -/
def slotsTo (s : State) (epoch d : Nat) : Nat :=
  ((s.fabric.links.filter (fun p => p.2.toward == some d)).map (fun p => 2 ^ skovField s epoch p.1 9 4)).foldl (· ||| ·) 0

/-- The slots of the links whose peers meet a condition. -/
def slotsWhere (s : State) (epoch : Nat) (meets : Nat → Bool) : Nat :=
  ((s.fabric.links.filter (fun p => p.2.toward.any meets)).map (fun p => 2 ^ skovField s epoch p.1 9 4)).foldl
    (· ||| ·) 0

/-- The first and relay masks toward a destination in a wiring. -/
def autoMasks (s : State) (epoch wiring d : Nat) : Nat × Nat :=
  let u := s.roll.unit
  if d = u then (0, 0)
  else if wiring = 2 ∧ d / 32 ≠ u / 32 ∧ d % 32 ≠ u % 32 then
    let across := slotsTo s epoch (d / 32 * 32 + u % 32)
    (slotsTo s epoch (u / 32 * 32 + d % 32) ||| across, across)
  else (slotsTo s epoch d, slotsTo s epoch d)

/-- The destinations of the table, written one by one. -/
def writeRows (epoch wiring : Nat) : List Nat → State → State
  | [], s => s
  | d :: ds, s =>
    let m := autoMasks s epoch wiring d
    writeRows epoch wiring ds (tblPut epoch 0x11 0 d (m.1 + m.2 * 2 ^ 64) s)

/-- With auto_routes, the firmware of a numbered unit writes the route table and the Valiant set of the wiring into the
generation that a commit makes live (R331, R332; notes/assumptions 149). -/
def autoRoutes (epoch : Nat) (s : State) : State :=
  let wiring := rwlFieldAt s epoch .fabric 0 2 1
  if rwlFieldAt s epoch .fabric 0 14 14 = 0 ∨ ¬ s.roll.numbered ∨ wiring = 0 then s
  else
    let local_ := fun d => wiring == 1 || d / 32 == s.roll.unit / 32
    let v := slotsWhere s epoch local_
    setRwl epoch .fabric 10 (v / 2 ^ 32) (setRwl epoch .fabric 9 (v % 2 ^ 32)
      (writeRows epoch wiring (List.range 1024) s))

/-- The commit takes effect at PD03/EPOCH; `tc` is the time gates count from (R136, R241, R315). -/
def commitEffect (wasAt : Bool) (tc : Nat) (s : State) : State :=
  let old := s.epoch.live
  let new := nextEpoch s
  let s1 := autoRoutes new (cleanBlocks new (dropAged s))
  let s2 := pausePipes old new (changedRoots s1 old new) (List.range 32) s1
  let s3 := { s2 with
    epoch := { s2.epoch with live := new, shadowOpen := false, commit := .cutting wasAt, effectAt := s2.now }
    tree := { s2.tree with errorRaised := keepMarks old s2 } }
  let s4 := adoptLevel (commitAllGates old new tc (List.range 512) (reseedFrags old new s3))
  let s5 := followBeats { s4 with
    power := { s4.power with wanted := rwlField s4 .pwrseq 0 29 0 }
    roll := { s4.roll with drainedSince := none } }
  completeCommit (skipOffPipes old new (List.range 32) (mouldInForce (if fabricOn s5 then followRoutes s5 else s5)))

/-- Whether both shuffler queues are empty. -/
def shufflersIdle (s : State) : Bool := s.routes.queue0.isEmpty && s.routes.queue1.isEmpty

/-- COMMIT_EFFECT: an EPOCH.COMMIT waits for the shuffler queues and takes effect (R241). -/
def execCommitEffect (s : State) : Host.Outcome State Fault Refusal :=
  .next (match s.epoch.commit with
    | .pending => if shufflersIdle s then commitEffect false (coreTime s) s else s
    | _ => s)

/-- COMMIT_AT_TIME: a scheduled commit's time is reached (R357). -/
def execCommitAtTime (s : State) : Host.Outcome State Fault Refusal :=
  .next (match s.epoch.commit with
    | .scheduled due => if due ≤ coreTime s ∧ shufflersIdle s then commitEffect true due s else s
    | _ => s)

/-- PIPE_CUTOVER: a pipe stamps the new epoch on the frames it starts (R59, R193). -/
def execPipeCutover (p : PipeId) (s : State) : Host.Outcome State Fault Refusal :=
  .next (match s.epoch.commit with
    | .cutting _ =>
      if pipeEp s p = s.epoch.live then s
      else completeCommit (cutPipe (pipeEp s p) s.epoch.live p s)
    | _ => s)

end Sys2Proof.Machine
end

