-- ==== Sys2Proof/Machine/Time.lean ====
section
/-!
DEFINITION. The time engine: the TIME group (R134, R135), the references and their vote (R409), the discipline
(R412 to R415), and captured edges (R429).
-/
namespace Sys2Proof.Machine

/-! ## The TIME group -/

/-- The state with the time engine replaced. -/
def setTime (t : TimeSt) (s : State) : State := { s with time := t }

/-- A time record of the engine count (R133, R412). -/
def timeRecord (s : State) : List Byte :=
  let slewing := s.time.slew.isSome
  leBytes 8 (todSec s) ++ leBytes 4 (todNs s) ++ leBytes 2 (todFrac s)
    ++ leBytes 2 (b2n (inHoldover s) + b2n slewing * 2 + b2n s.time.notSet * 4)

/-- TIME.RD kd, ka (R134). -/
def execTimeRd (e : EngineId) (kd ka : KReg) (s : State) : Host.Outcome State Fault Refusal :=
  .next (runDev e .timeRead (encDev 0x28 0 kd ka 0 0) kd (fun s =>
    let a := (kget s e ka).toNat
    match recordFault s e .write a with
    | some f => .trap f.1 f.2
    | none => .done (result rOk 0) (storeBytes e a (timeRecord s) s)) s)

/-- TIME.RDN kd: nanoseconds in value[45:16], the fraction in value[15:0], kd[7:0] 0 (R134). -/
def execTimeRdn (e : EngineId) (kd : KReg) (s : State) : Host.Outcome State Fault Refusal :=
  .next (runDev e .timeRead (encDev 0x28 1 kd 0 0 0) kd (fun s =>
    .done (result rOk (todNs s * 65536 + todFrac s)) s) s)

/-- step_threshold_ns in units. -/
def stepThreshold (s : State) : Nat := rwField s .time 1 29 0 * 65536

/-- slew_limit_ppb. -/
def slewLimit (s : State) : Nat := rwField s .time 2 18 0

/-- A time configuration register is in the condition of R432: the engine is in HOLDOVER and takes no correction. -/
def timeParity (s : State) : Bool := [0, 1, 2].any (fun r => flipsOf s .time r != 0)

/-- TIME.SET, TIME.STEP and TIME.SLEW answer BUSY: in SWITCHOVER, with a time register in parity, and while the time
engine is stopped for its reload (R135, R432, R505). -/
def timeBusy (s : State) : Bool := s.time.state == .switchover || timeParity s || s.upd.phase == .time

/-- Move the count; PPS_OUT's pulse in progress keeps its width (R408, R425). -/
def moveCount (d : Int) (s : State) : State :=
  setTime { s.time with
    count := ((s.time.count : Int) + d).toNat
    ppsFall := ((s.time.ppsFall : Int) + d).toNat } s

/-- A step, or a set treated as one: its result code and the state after it (R134, R135, R446). -/
def stepTime (d : Int) (s : State) : Nat × State :=
  if timeBusy s then (rBusy, s)
  else if stepThreshold s ≠ 0 ∧ d.natAbs ≤ stepThreshold s then (rOk, moveCount d s)
  else (rRefused, raiseAt (blockPlace .time) Ev.timeJumpRefused (twos 48 (d / 256)) 1 s)

/-- TIME.SET kd, ka (R134). -/
def execTimeSet (e : EngineId) (kd ka : KReg) (s : State) : Host.Outcome State Fault Refusal :=
  .next (runDev e .timeSet (encDev 0x28 2 kd ka 0 0) kd (fun s =>
    let a := (kget s e ka).toNat
    match recordFault s e .read a with
    | some f => .trap f.1 f.2
    | none => match recordTime (loadBytes s e a 16) with
      | none => .done (result rRange 0) s
      | some t =>
        if timeBusy s then .done (result rBusy 0) s
        else if s.time.notSet then
          .done (result rOk 0) (setTime { s.time with count := t, notSet := false, lastSecond := t / secUnits } s)
        else
          let r := stepTime ((t : Int) - s.time.count) s
          .done (result r.1 0) r.2) s)

/-- TIME.STEP kd, ka (R134). -/
def execTimeStep (e : EngineId) (kd ka : KReg) (s : State) : Host.Outcome State Fault Refusal :=
  .next (runDev e .timeSet (encDev 0x28 3 kd ka 0 0) kd (fun s =>
    let r := stepTime (kget s e ka).toInt s
    .done (result r.1 0) r.2) s)

/-- TIME.SLEW kd, ka, kb: a bit of kb outside [19:0] is RANGE (R123, R134, R135). -/
def execTimeSlew (e : EngineId) (kd ka kb : KReg) (s : State) : Host.Outcome State Fault Refusal :=
  .next (runDev e .timeSet (encDev 0x28 4 kd ka kb 0) kd (fun s =>
    let rate := (kget s e kb).toNat
    if slewLimit s < rate ∨ 2 ^ 20 ≤ rate then .done (result rRange 0) s
    else if timeBusy s then .done (result rBusy 0) s
    else .done (result rPending 0) (setTime { s.time with
      slew := some { left := (kget s e ka).toInt, rate := if rate = 0 then slewLimit s else rate, byInstr := true } } s)) s)

/-- The handles no pending action has. -/
def freeHandles (s : State) : List Nat := (List.range 64).filter (fun h => !mhas s.time.actions h)

/-- TIME.AT kd, ka, kb, kc: a bit of kb or kc outside [31:0] is RANGE before the record is read; which free handle the
action gets is not stated (R123, R134, R135; notes/assumptions 140). -/
def execTimeAt (e : EngineId) (kd ka kb kc : KReg) (s : State) : Host.Outcome State Fault Refusal :=
  .next (runDev e .timeSet (encDev 0x28 5 kd ka kb kc) kd (fun s =>
    let a := (kget s e ka).toNat
    if 2 ^ 32 ≤ (kget s e kb).toNat ∨ 2 ^ 32 ≤ (kget s e kc).toNat then .done (result rRange 0) s
    else match recordFault s e .read a with
    | some f => .trap f.1 f.2
    | none => match recordTime (loadBytes s e a 16) with
      | none => .done (result rRange 0) s
      | some due =>
        if due ≤ s.time.count then .done (result rLate 0) s
        else if freeHandles s = [] then .done (result rFull 0) s
        else
          let p := freeBelow (freeHandles s).length s
          let h := (freeHandles s).getD p.1 0
          let act : TimedAction := { due := due, addr := (kget s e kb).toNat, val := (kget s e kc).toNat }
          .done (result rOk h) (setTime { p.2.time with actions := mput p.2.time.actions h act } p.2)) s)

/-- TIME.CANCEL kd, ka: an action that falls due now is performed and not cancelled (R135). -/
def execTimeCancel (e : EngineId) (kd ka : KReg) (s : State) : Host.Outcome State Fault Refusal :=
  .next (runDev e .timeSet (encDev 0x28 6 kd ka 0 0) kd (fun s =>
    let h := (kget s e ka).toNat
    if 64 ≤ h then .done (result rRange 0) s
    else if mhas s.time.actions h ∧ s.time.count < (mget {} s.time.actions h).due then
      .done (result rOk 0) (setTime { s.time with actions := mdel s.time.actions h } s)
    else .done (result rNotFound 0) s) s)

/-- SLEW_COMPLETE: nothing is left to slew (R134, R446). -/
def execSlewComplete (s : State) : Host.Outcome State Fault Refusal :=
  .next (match s.time.slew with
    | some w =>
      if w.left = 0 then raise .time Ev.timeSlewDone (b2n w.byInstr) (setTime { s.time with slew := none } s) else s
    | none => s)

/-! ## Reference inputs (R409, R429) -/

/-- A reference channel. -/
def refOf (s : State) (x : Nat) : RefChan := mget {} s.time.refs x

/-- The state with a channel replaced. -/
def setRef (x : Nat) (r : RefChan) (s : State) : State := setTime { s.time with refs := mset {} s.time.refs x r } s

/-- The phase of an edge captured at a count, in 2⁻⁸ ns: the nearest second of the reference less the count. -/
def edgePhase (t : Nat) : Int :=
  let f := t % secUnits
  if 2 * f < secUnits then -((f / 256 : Nat) : Int) else ((secUnits - f) / 256 : Nat)

/-- PPS_EDGE: the count at an edge, less pps_delay_ps, is captured; `inTime` says that it came 1 s ± 100 ns after the
edge before it on its own frequency input (R406, R409, R429). -/
def execPpsEdge (ch : Fin 3) (inTime : Bool) (s : State) : Host.Outcome State Fault Refusal :=
  .next (if ¬ domainOn s 2 then s
    else
      let t := s.time.count - rwField s .refin (16 * ch.val + 1) 23 0 * 65536 / 1000
      setRef ch.val { refOf s ch.val with
        ppsPresent := inTime
        edge := if inTime then some (edgePhase t) else none
        capNs := t % secUnits / 65536
        capFrac := t % 65536
        unread := true } s)

/-- A channel's measurements at a boundary: its frequency input, and the edge since the last boundary (R409). -/
def measureRef (x : Nat) (freq : Option (BitVec 32)) (s : State) : State :=
  let r := refOf s x
  let present := match freq with
    | some _ => true
    | none => false
  let pps := r.ppsPresent && r.edge.isSome
  setRef x { r with
    freqPresent := present
    ppsPresent := pps
    qualified := rwField s .refin (16 * x) 0 0 = 1 && present && pps
    phase := r.edge.getD r.phase
    freq := match freq with
      | some f => f.toInt
      | none => r.freq
    edge := none } s

/-- Whether two channels agree within the vote's tolerances divided by `k` (R409, R410). -/
def refsAgree (s : State) (p1 f1 p2 f2 : Int) (k : Nat) : Bool :=
  decide ((p1 - p2).natAbs * k ≤ rwField s .time 0 13 4 * 256)
    && decide ((f1 - f2).natAbs * k ≤ rwField s .time 0 23 14 * 16)

/-- Whether two channels of the vote agree. -/
def chansAgree (s : State) (x y : Nat) : Bool :=
  refsAgree s (refOf s x).phase (refOf s x).freq (refOf s y).phase (refOf s y).freq 1

/-- The largest set of agreeing candidates; none where two sets are as large (R409). -/
def largestSet (s : State) (c : List Nat) : List Nat :=
  let pairs := [[0, 1], [0, 2], [1, 2]].filter (fun p => p.all (fun x => c.contains x) && chansAgree s (p.getD 0 0) (p.getD 1 0))
  if pairs.length = 3 then [0, 1, 2]
  else match pairs with
    | [p] => p
    | _ => if pairs.isEmpty && c.length == 1 then c else []

/-- The channels that may be in the vote: qualified and not voted out; where none is left, every qualified one. -/
def candidates (s : State) : List Nat :=
  let q := [0, 1, 2].filter (fun x => (refOf s x).qualified && !(refOf s x).auditOut)
  let c := q.filter (fun x => !(refOf s x).out)
  if c.isEmpty then q else c

/-- A channel leaves the vote. -/
def voteOut (x cause : Nat) (s : State) : State :=
  raise .time Ev.refVotedOut (x + cause * 4) (setRef x { refOf s x with out := true, agreed := 0 } s)

/-- A channel's place in the vote beside the agreeing set (R409). -/
def voteChannel (set : List Nat) (x : Nat) (s : State) : State :=
  let r := refOf s x
  if ¬ r.qualified then
    if r.voted then voteOut x 1 s else setRef x { r with agreed := 0 } s
  else if set.contains x then
    if r.out then raise .time Ev.refVotedIn x (setRef x { r with out := false, agreed := 0 } s) else s
  else if r.out ∨ r.auditOut then
    let ok := !set.isEmpty && set.all (fun y => chansAgree s x y) && !r.auditOut
    let n := if ok then r.agreed + 1 else 0
    if ok ∧ rwField s .time 0 31 24 ≤ n then raise .time Ev.refVotedIn x (setRef x { r with out := false, agreed := 0 } s)
    else setRef x { r with agreed := n } s
  else if set.length < 2 then s
  else voteOut x 0 s

/-- The median of the phases of a set (R409). -/
def medianPhase (s : State) (v : List Nat) : Int :=
  let p := v.map (fun x => (refOf s x).phase)
  match p with
  | [a] => a
  | [a, b] => (a + b) / 2
  | [a, b, c] => max (min a b) (min (max a b) c)
  | _ => 0

/-- The vote of a boundary: the voted set, empty where it holds fewer than min_refs channels (R409). -/
def vote (s : State) : List Nat × State :=
  let set := largestSet s (candidates s)
  let c := candidates s
  let s1 := if set.isEmpty ∧ 2 ≤ c.length then
      raise .time Ev.refNoMajority (([0, 1, 2].map (fun x => b2n (refOf s x).qualified * 2 ^ x)).foldl (· + ·) 0) s
    else s
  let s2 := voteChannel set 2 (voteChannel set 1 (voteChannel set 0 s1))
  let joined := [0, 1, 2].filter (fun x => (refOf s2 x).qualified && !(refOf s2 x).out && !(refOf s2 x).auditOut
    && (set.contains x || (!set.isEmpty && set.all (fun y => chansAgree s2 x y))))
  (if joined.length < rwField s .time 0 3 2 then [] else joined, s2)

/-! ## The discipline (R412 to R415) -/

/-- Enter a state; a refusal may be raised again after HOLDOVER is entered. -/
def enterTime (st : TimeState) (s : State) : State :=
  setTime { s.time with state := st, refused := if st = .holdover ∧ s.time.state ≠ .holdover then false else s.time.refused } s

/-- Slew an offset of 2⁻⁸ ns out; a slew an instruction started runs on (R413, R414). -/
def slewOut (off : Int) (s : State) : State :=
  match s.time.slew with
  | some w => if w.byInstr then s else setTime { s.time with slew := some { left := off * 256, rate := slewLimit s } } s
  | none => setTime { s.time with slew := some { left := off * 256, rate := slewLimit s } } s

/-- The second half of R413: what LOCKED and HOLDOVER do with the voted set. -/
def steer (v : List Nat) (s : State) : State :=
  let off := s.time.offset
  if s.time.state ≠ .locked ∧ s.time.state ≠ .holdover then s
  else if v = [] then if s.time.state = .locked then enterTime .holdover s else s
  else if s.time.notSet then enterTime .locked (moveCount (off * 256) s)
  else if off.natAbs * 256 ≤ stepThreshold s then enterTime .locked (slewOut off s)
  else if s.time.state = .holdover ∧ ¬ s.time.refused then
    raiseAt (blockPlace .time) Ev.timeJumpRefused (twos 48 off) 0 (setTime { s.time with refused := true } s)
  else if s.time.state = .locked then s
  else s

/-- One boundary less of SWITCHOVER (R413). -/
def countSwitchover (s : State) : State :=
  if s.time.state ≠ .switchover then s
  else if s.time.hold ≤ 1 then enterTime .holdover (setTime { s.time with hold := 0 } s)
  else setTime { s.time with hold := s.time.hold - 1 } s

/-- The state with SWITCHOVER entered. -/
def switchOver (s : State) : State := enterTime .switchover (setTime { s.time with hold := 2 } s)

/-- The boundary under REF (R413). -/
def refBoundary (v : List Nat) (changed : Bool) (s : State) : State :=
  steer v (if changed then switchOver s else countSwitchover s)

/-- The boundary under PTP: the firmware servo steers; here only its lock is followed (R412, R415). -/
def ptpBoundary (servo : Bool) (s : State) : State :=
  let s1 := countSwitchover (setTime { s.time with ptpLocked := servo } s)
  if s1.time.state = .switchover then s1
  else if servo then enterTime .locked s1
  else if s1.time.state = .locked then enterTime .holdover s1
  else s1

/-- The boundary with source FREE (R412). -/
def freeBoundary (s : State) : State :=
  let s1 := countSwitchover s
  if s1.time.state = .switchover then s1 else enterTime .free s1

/-- Mark the channels of a voted set. -/
def markVoted (v : List Nat) : List Nat → State → State
  | [], s => s
  | x :: xs, s => markVoted v xs (setRef x { refOf s x with voted := v.contains x } s)

/-- The discipline of a second boundary (R413, R414, R432). -/
def boundary (servo : Bool) (s : State) : State :=
  let old := [0, 1, 2].filter (fun x => (refOf s x).voted)
  let r := vote s
  let s1 := markVoted r.1 [0, 1, 2] r.2
  let s2 := if r.1 = [] then s1 else setTime { s1.time with offset := medianPhase s1 r.1 } s1
  if timeParity s2 then enterTime .holdover s2
  else if s2.time.sourceChanged then switchOver (setTime { s2.time with sourceChanged := false } s2)
  else match rwField s2 .time 0 1 0 with
    | 0 => refBoundary r.1 (r.1 != old) s2
    | 1 => ptpBoundary servo s2
    | _ => freeBoundary s2

/-- Whether a command is evaluated before a second boundary of its clock: a PPS edge, a TIME.SLEW (R414). -/
def beforeBoundary : Instr → Bool
  | .ppsEdge .. => true
  | .timeSlew .. => true
  | _ => false

/-- SECOND_BOUNDARY: the references are measured and voted and the discipline acts; with its core stopped the engine
runs on (R86, R409, R413). A PPS edge and a TIME.SLEW of the same clock come first (R414). -/
def execSecondBoundary (freqA freqB freqC : Option (BitVec 32)) (servo : Bool) (s : State) :
    Host.Outcome State Fault Refusal :=
  .next (if todSec s = s.time.lastSecond ∨ ¬ domainOn s 2 ∨ s.pending.any beforeBoundary then s
    else
      let s1 := measureRef 2 freqC (measureRef 1 freqB (measureRef 0 freqA
        (setTime { s.time with lastSecond := todSec s } s)))
      let r := (engine s eTime).run
      if r = .running ∨ r = .waiting then boundary servo s1 else s1)

/-- PTP_PARENT_LOSS: the servo loses its parent (R415). -/
def execPtpParentLoss (s : State) : Host.Outcome State Fault Refusal :=
  .next (if rwField s .time 0 1 0 = 1 then enterTime .holdover (setTime { s.time with ptpLocked := false } s) else s)

end Sys2Proof.Machine
end

