-- ==== Sys2Proof/Machine/Counters.lean ====
section
/-!
DEFINITION. Counters: what a core clock adds to the performance counters (R509, R511), the CTR group (R138), the
snapshot (R516), the flow counter windows (R519) and the telemetry export (R524).
-/
namespace Sys2Proof.Machine

/-! ## Threshold counters (R509, R511) -/

/-- Staging lists in KiB, rounded up (R295). -/
def stagingKib (s : State) : Nat :=
  ((s.qm.states.map (fun p => (p.2.tail.map (fun i => (desc s i).rind.length)).foldl (· + ·) 0)).foldl (· + ·) 0
    + 1023) / 1024

/-- Streams with held frames (R341). -/
def holdContexts (s : State) : Nat := (s.fabric.heldFrames.filter (fun p => !p.2.isEmpty)).length

/-- The occupancy of a resource; none where R511 lists no such code. -/
def occupancy (s : State) (c : Nat) : Option Nat :=
  if 0x200 ≤ c ∧ c ≤ 0x207 then some (s.vat.held.filter (fun p => hPool p.1 == c - 0x200)).length
  else if 0x220 ≤ c ∧ c ≤ 0x23F then some (backlogKib s (c - 0x220))
  else match c with
    | 0x210 => some (residentCount s)
    | 0x211 => some s.qm.journal.length
    | 0x212 => some (readsOpen s)
    | 0x213 => some (stagingKib s)
    | 0x214 => some (heldCount s)
    | 0x215 => some (holdContexts s)
    | 0x216 => some s.sched.wheel.length
    | 0x240 => some s.routes.queue0.length
    | 0x241 => some s.routes.queue1.length
    | _ => none

/-- Whether R511 lists a resource code. -/
def resourceCode (c : Nat) : Bool :=
  (decide (0x200 ≤ c) && decide (c ≤ 0x207)) || (decide (0x210 ≤ c) && decide (c ≤ 0x216))
    || (decide (0x220 ≤ c) && decide (c ≤ 0x241))

/-- Whether R510 assigns an event code. -/
def eventCode (c : Nat) : Bool :=
  [0x000, 0x001, 0x010, 0x011, 0x012, 0x013, 0x014, 0x015, 0x016, 0x017, 0x018, 0x020, 0x021, 0x022, 0x030, 0x031].contains c
    || [0x032, 0x033, 0x040, 0x041, 0x042, 0x043, 0x044, 0x045, 0x050, 0x051, 0x052, 0x053, 0x060, 0x061, 0x070].contains c

/-- Whether a counter in threshold mode counts this clock. -/
def thresholdCounts (s : State) (n : Nat) : Bool :=
  rwField s .perfctr (16 * n) 11 10 == 3 && (match occupancy s (rwField s .perfctr (16 * n) 9 0) with
    | some o => decide (rwField s .perfctr (16 * n + 4) 31 0 < o)
    | none => false)

/-- The threshold counters of a list add this clock. -/
def addThresholds (s0 : State) : List Nat → State → State
  | [], s => s
  | n :: ns, s => addThresholds s0 ns (if thresholdCounts s0 n then perfCount n 1 s else s)

/-- What a core clock adds to the performance counters (R509, R510). -/
def perfClock (s : State) : State :=
  if !domainOn s 13 then s
  else perfEvent { code := 0x001, master := Sys2Proof.Config.blockMaster 33 0 % 64 } (addThresholds s (perfSelected s) s)

/-- What a capture of the new core clock holds: the counts of the clocks before it (R63, R519); the clock's own events
begin (R515). -/
def markCounts (s : State) : State :=
  { s with perf := { s.perf with
      startValue := s.perf.value
      startOvf := s.perf.ovf
      startPorts := s.portStats
      startFlows := s.flows
      clockAdds := [] } }

/-! ## The CTR group (R138, R514 to R516) -/

/-- The state with the counters replaced. -/
def setPerf (p : PerfSt) (s : State) : State := { s with perf := p }

/-- Stop or run every counter: the freeze field (R516). -/
def setFreeze (on : Bool) (s : State) : State :=
  if domainOn s 13 then freezeEdge (perfFrozen s) (setRw .perfctr 4096 (b2n on) s) else s

/-- CTR.FREEZE kd, ka: a bit of ka outside [0] is RANGE (R123, R138). -/
def execCtrFreeze (e : EngineId) (kd ka : KReg) (s : State) : Host.Outcome State Fault Refusal :=
  .next (runDev e .ctr (encDev 0x2A 0 kd ka 0 0) kd (fun s =>
    if 2 ≤ (kget s e ka).toNat then .done (result rRange 0) s
    else .done (result rOk 0) (setFreeze ((kget s e ka).toNat == 1) s)) s)

/-- A snapshot: every counter, overflow bit and port statistic as this core clock found them, and the time (R63, R138,
R516). -/
def takeSnapshot (s : State) : State :=
  setPerf { s.perf with
    snap := s.perf.startValue
    snapOvf := s.perf.startOvf
    ports := s.perf.startPorts
    snapTime := coreTime s
    snapping := true
    snapAt := s.now } s

/-- CTR.SNAP kd (R138, R516). -/
def execCtrSnap (e : EngineId) (kd : KReg) (s : State) : Host.Outcome State Fault Refusal :=
  .next (runDev e .ctr (encDev 0x2A 1 kd 0 0 0) kd (fun s =>
    if s.perf.snapping then .done (result rBusy 0) s
    else .done (result rOk 0) (if domainOn s 13 then takeSnapshot s else s)) s)

/-- CTR.RD kd, ka: the full counter; a bad index reads 0 and raises CTR_BAD_INDEX (R138, R446). -/
def execCtrRd (e : EngineId) (kd ka : KReg) (s : State) : Host.Outcome State Fault Refusal :=
  .next (runDev e .ctr (encDev 0x2A 2 kd ka 0 0) kd (fun s =>
    let a := (kget s e ka).toNat
    if a / 512 ≠ 0 then
      .done 0 (raiseAt (blockPlace .perfctr) Ev.ctrBadIndex (a % 2 ^ 32 + engineMaster e * 2 ^ 32) (a / 2 ^ 32) s)
    else .done (BitVec.ofNat 64 (mget 0 (if bitOf a 8 then s.perf.snap else s.perf.value) (a % 256))) s) s)

/-- Clear a counter's overflow bit; a wrap of this core clock stands (R514, R515). -/
def clearOvf (n : Nat) (s : State) : State :=
  let wrapped := !perfFrozen s && decide (mget 0 s.perf.value n < mget 0 s.perf.clockAdds n)
  if bitOf s.perf.ovf n ∧ ¬ wrapped then setPerf { s.perf with ovf := s.perf.ovf - 2 ^ n } s else s

/-- Set a counter: the events of this core clock are added after it (R515). -/
def writeCounter (n v : Nat) (s : State) : State :=
  let set := { s.perf with value := mset 0 s.perf.value n v }
  setPerf (if perfFrozen s then set else perfAdd n (mget 0 s.perf.clockAdds n) set) s

/-- CTR.OVF kd, ka (R138). -/
def execCtrOvf (e : EngineId) (kd ka : KReg) (s : State) : Host.Outcome State Fault Refusal :=
  .next (runDev e .ctr (encDev 0x2A 3 kd ka 0 0) kd (fun s =>
    let a := (kget s e ka).toNat
    if a / 1024 ≠ 0 then .done (result rRange 0) s
    else .done (result rOk (b2n (bitOf s.perf.ovf (a % 256)))) (if bitOf a 9 then clearOvf (a % 256) s else s)) s)

/-- CTR.WR kd, ka, kb (R138, R515). -/
def execCtrWr (e : EngineId) (kd ka kb : KReg) (s : State) : Host.Outcome State Fault Refusal :=
  .next (runDev e .ctr (encDev 0x2A 4 kd ka kb 0) kd (fun s =>
    let a := (kget s e ka).toNat
    if 256 ≤ a then .done (result rRange 0) s
    else .done (result rOk 0) (if domainOn s 13 then writeCounter a (kget s e kb).toNat s else s)) s)

/-- PORT_SNAPSHOT_READY: the port statistics of a snapshot can be read (R516). -/
def execPortSnapshotReady (s : State) : Host.Outcome State Fault Refusal :=
  .next (if s.perf.snapping then setPerf { s.perf with snapping := false } s else s)

/-! ## The export (R524, R525) -/

/-- `n` values of 8 bytes from index `i`. -/
def dumpWords (m : SMap Nat) (i n : Nat) : List Byte := (List.range n).flatMap (fun k => leBytes 8 (mget 0 m (i + k)))

/-- The port statistics section: 512 ports of 36 counters. -/
def dumpPorts (m : SMap Nat) : List Byte := (List.range 512).flatMap (fun p => dumpWords m (64 * p) 36)

/-- The flow counter section: packets then bytes of each. -/
def dumpFlows (m : SMap (Nat × Nat)) (i n : Nat) : List Byte :=
  (List.range n).flatMap (fun k => leBytes 8 (mget (0, 0) m (i + k)).1 ++ leBytes 8 (mget (0, 0) m (i + k)).2)

/-- A dump: its counts are those that this core clock found (R63, R524). -/
def dumpBytes (s : State) : List Byte :=
  let content := rwField s .perfctr 4112 19 16
  let first := rwField s .perfctr 4113 20 0
  let count := rwField s .perfctr 4114 16 0
  leBytes 4 (s.perf.exportSeq + 1) ++ leBytes 4 content ++ timeRecord s ++ leBytes 4 first ++ leBytes 4 count
    ++ List.replicate 32 0
    ++ (if bitOf content 0 then dumpWords s.perf.startValue 0 256 else [])
    ++ (if bitOf content 1 then dumpPorts s.perf.startPorts else [])
    ++ (if bitOf content 2 then dumpWords s.whey.count 0 128 else [])
    ++ (if bitOf content 3 then dumpFlows s.perf.startFlows first count else [])

/-- Telemetry's owner name (R257). -/
def telemetryName : Nat := ownerName 8 0

/-- An export that is skipped. -/
def skipExport (s : State) : State :=
  setPerf { s.perf with exportSkipped := (s.perf.exportSkipped + 1) % 2 ^ 32 } s

/-- A dump is captured into a pool 6 buffer, whose hold passes to export_owner. -/
def writeDump (s : State) : State :=
  let live := s.perf.dumps.filter (fun h => mhas s.vat.held h)
  let s0 := setPerf { s.perf with dumps := live } s
  if 4 ≤ live.length then skipExport s0
  else match claim 6 telemetryName 1 s0 with
    | (some (i :: _), s1) =>
      let h := handle 6 i
      let s2 := { s1 with cave := { s1.cave with mem := memWrite s1.cave.mem (caveOffset h) (dumpBytes s1) } }
      let s3 := setRecord h (rwField s .perfctr 4115 31 0) 1 s2
      setPerf { s3.perf with
        dumps := live ++ [h]
        exportSeq := (s3.perf.exportSeq + 1) % 2 ^ 32
        exportHandle := h } s3
    | (_, s1) => skipExport s1

/-- TELEMETRY_EXPORT: interval_ms has passed since the enabling write or the last export (R524). -/
def execTelemetryExport (s : State) : Host.Outcome State Fault Refusal :=
  let ms := rwField s .perfctr 4112 15 0
  .next (if ms = 0 ∨ ¬ domainOn s 13 ∨ s.now < s.perf.exportFrom + ms * psMs then s
    else writeDump (setPerf { s.perf with exportFrom := s.perf.exportFrom + ms * psMs } s))

end Sys2Proof.Machine
end

