-- ==== Sys2Proof/Machine/Faults.lean ====
section
/-!
DEFINITION. Faults and recovery: FAULT and AUDIT (R139, R140), repairs (R431 to R435), the Scraper (R271, R434),
pipe faults (R436), the Triad's vote, resync and headless operation (R437 to R440), AUDIT passes (R441) and the
event ledger's ring (R442).
-/
namespace Sys2Proof.Machine

/-! ## FAULT (R139) -/

/-- The block an engine raises its events from (R443). -/
def enginePlace (e : Nat) : Nat × Nat :=
  if e = eTriad then blockPlace .triad
  else if e = eTime then blockPlace .time
  else if e = eStarter then blockPlace .starter
  else blockPlace (.tcore ((e - 2) / 2) ((e - 2) % 2))

/-- FAULT.RAISE kd, ka: T0 raises any code, T1 the operator codes (R139). -/
def execFaultRaise (e : EngineId) (kd ka : KReg) (s : State) : Host.Outcome State Fault Refusal :=
  let word := encDev 0x2B 0 kd ka 0 0
  .next (runDev e .faultRaise word kd (fun s =>
    let v := (kget s e ka).toNat
    if tierOf s e = 1 ∧ v % 65536 < 0xF000 then .trap causeTier word.toNat
    else .done (result rOk 0) (raiseAt (enginePlace e) (v % 65536) (v / 65536) 0 s)) s)

/-- Whether a party holds a buffer, a lock or a pin. -/
def holdsAnything (s : State) (o : Nat) : Bool :=
  let names := partyNames o
  s.vat.held.any (fun p => p.2.chain == 0 && !p.2.ended && names.contains p.2.owner)
    || s.vat.holdTable.any (fun h => names.contains h.2.1)
    || (s.qm.locks ++ s.qm.pins).any (fun l => names.contains l.2)

/-- FAULT.DECLARE of a party: its result and the state after it (R139, R434, R436). -/
def faultDeclareOp (o : Nat) (s : State) : Nat × State :=
  if 2 ^ 32 ≤ o then (rNotFound, s)
  else if isPending s o then (rBusy, s)
  else if ¬ holdsAnything s o then (rNotFound, s)
  else if 64 ≤ (s.scraper.pending.filter (fun p => p.2)).length then (rBusy, s)
  else
    let s1 := declareParty o true s
    (rPending, if isPipeName o ∧ o % 2 ^ 28 < 32 ∧ ¬ (pipeOf s1 (o % 2 ^ 28)).faulted then faultPipe (o % 2 ^ 28) 2 s1
      else s1)

/-- FAULT.DECLARE kd, ka (R139). -/
def execFaultDeclare (e : EngineId) (kd ka : KReg) (s : State) : Host.Outcome State Fault Refusal :=
  .next (runDev e .faultDeclare (encDev 0x2B 1 kd ka 0 0) kd (fun s =>
    let r := faultDeclareOp (kget s e ka).toNat s
    .done (result r.1 0) r.2) s)

/-! ## The Scraper (R271, R434) -/

/-- The Whey reason of a frame whose last hold the Scraper ends (R434). -/
def partyReason (o : Nat) : Nat :=
  if isPipeName o then Wh.pipeFault else if ownerKind o = 3 then Wh.parity else Wh.ownerFault

/-- The ingress port of the frame in a chain, as a descriptor of it tells. -/
def chainPort (s : State) (cell : Nat) : Nat :=
  match s.descs.find? (fun d => d.2.firstCell == cell) with
  | some d => d.2.rind.ingressPort
  | none => 0

/-- The Scraper ends one hold of a buffer; the frame of a chain it returns is dropped (R271, R434). -/
def scrapeOne (reason h : Nat) (owner : Bool) (s : State) : State :=
  let last : Bool := match recordOf s h with
    | some r => decide (r.holds ≤ 1)
    | none => false
  let port := chainPort s (hIdx (govern s h))
  let s1 := if hPool h = 7 then freeDescSlot (hIdx h) s else if owner then endOwnerHold h s else endOneHold h s
  if last ∧ hPool h = 0 then whey reason port s1 else s1

/-- End n holds of a buffer. -/
def scrapeMany (reason h : Nat) : Nat → State → State
  | 0, s => s
  | n + 1, s => scrapeMany reason h n (scrapeOne reason h false s)

/-- The party's hold-table entries leave, and each of their holds ends. -/
def scrapeTable (reason : Nat) : List (Nat × Nat × Nat) → State → State
  | [], s => s
  | e :: es, s => scrapeTable reason es (scrapeMany reason e.1 e.2.2
      { s with vat := { s.vat with holdTable := holdTableTake e.1 e.2.1 e.2.2 s.vat.holdTable } })

/-- The descriptors the party still has: each stands for one hold of its chain, but the first of a chain whose last
owner is the party stands for that owner's hold. -/
def scrapeDescs (reason : Nat) (names : List Nat) : List Nat → List Nat → State → State
  | [], _, s => s
  | i :: is, seen, s =>
    let h := handle 0 (desc s i).firstCell
    let own : Bool := match recordOf s h with
      | some r => names.contains r.owner && !r.ended
      | none => false
    if own ∧ ¬ seen.contains h then scrapeDescs reason names is (h :: seen) s
    else scrapeDescs reason names is seen (scrapeOne reason h false s)

/-- Every holding whose last owner is the party ends. -/
def scrapeHeld (reason : Nat) : List Nat → State → State
  | [], s => s
  | h :: hs, s => scrapeHeld reason hs (scrapeOne reason h true s)

/-- Release a list of locks. -/
def releaseLocks : List (Nat × Nat) → State → State
  | [], s => s
  | l :: ls, s => releaseLocks ls (unlock l.1 s)

/-- Release a list of pins. -/
def releasePins : List (Nat × Nat) → State → State
  | [], s => s
  | l :: ls, s => releasePins ls (unpin l.1 s)

/-- Records that still name the party as last owner, because sharers hold the buffer, name the Scraper (R271). -/
def scrapeNames (names : List Nat) (s : State) : State :=
  { s with vat := { s.vat with
      held := s.vat.held.map (fun p => if names.contains p.2.owner then (p.1, { p.2 with owner := scraperName }) else p) } }

/-- The recovery of one party: locks and pins, hold table, holdings (R434). -/
def scrapeParty (o : Nat) (s : State) : State :=
  let names := partyNames o
  let reason := partyReason o
  let s1 := releasePins (s.qm.pins.filter (fun l => names.contains l.2))
    (releaseLocks (s.qm.locks.filter (fun l => names.contains l.2)) s)
  let s2 := scrapeTable reason (s1.vat.holdTable.filter (fun e => names.contains e.2.1)) s1
  let mine := fun (t : State) => (t.vat.held.filter (fun p => p.2.chain == 0 && !p.2.ended
    && names.contains p.2.owner)).map (fun p => p.1)
  let descs := ((mine s2).filter (fun h => hPool h == 7 && mhas s2.descs (hIdx h))).map hIdx
  let s3 := scrapeDescs reason names descs [] s2
  scrapeNames names (scrapeHeld reason (mine s3) s3)

/-- The frame of a descriptor that a faulted queue held is dropped under PARITY, and the Scraper ends its hold (R434,
R435). -/
def scrapeTakenDesc (port i : Nat) (s : State) : State :=
  let d := desc s i
  let h := handle 0 d.firstCell
  if ¬ descOk s d then dropWrongDesc i port s
  else
    let s1 := whey Wh.parity port s
    if d.rind.kind = 2 then freeDescSlot i (hwEndHold (holderOf d) h s1)
    else freeDescSlot i (match recordOf s1 h with
      | some r => if ownsRecord s1 scraperName r ∨ r.owner = queueOwner d.holderQueue then endOwnerHold h s1 else endOneHold h s1
      | none => s1)

/-- See `scrapeTakenDesc`. -/
def scrapeTakenDescs (port : Nat) : List Nat → State → State
  | [], s => s
  | i :: is, s => scrapeTakenDescs port is (scrapeTakenDesc port i s)

/-- What a queue declared faulted held ends (R435). -/
def scrapeTaken (q : Nat) (s : State) : State :=
  let x := mget {} s.scraper.taken q
  let port := (qcfg s q).port
  wheyN Wh.parity x.frames port (freePages x.pages (scrapeTakenDescs port x.descs
    { s with scraper := { s.scraper with taken := mdel s.scraper.taken q } }))

/-- The lists of a queue that firmware declared faulted leave its state for the Scraper (R271, R434). -/
def takeQueue (q : Nat) (s : State) : State :=
  let x := qst s q
  let old := mget {} s.scraper.taken q
  let now : TakenQueue :=
    { descs := old.descs ++ x.head ++ x.tail, pages := old.pages ++ x.pages, frames := old.frames + pagedFrames s x }
  let s1 := setQ q { x with head := [], tail := [], pages := [], since := [], partOut := 0, partIn := [], partBad := 0,
                            depth := 0, paged := false, miss := false, reading := false, prefetching := false,
                            dirty := true } s
  { s1 with scraper := { s.scraper with taken := mput s.scraper.taken q now } }

/-- The recovery of a party: a queue gives its frames up first; one that hardware declared then stands for later
enqueues (R434, R435). -/
def recoverParty (p : Nat × Bool) (s : State) : State :=
  let q := p.1 % 2 ^ 28
  if ownerKind p.1 ≠ 3 then scrapeParty p.1 s
  else if p.2 then scrapeParty p.1 (scrapeTaken q (takeQueue q s))
  else scrapeTaken q s

/-- SCRAPER_RECOVERY: the Scraper recovers the party declared first (R434, R435). -/
def execScraperRecovery (s : State) : Host.Outcome State Fault Refusal :=
  .next (match s.scraper.current, s.scraper.pending with
    | none, p :: ps =>
      let s1 := recoverParty p s
      { s1 with scraper := { s1.scraper with
          pending := ps
          current := some p.1
          swept := s.vat.held.length - s1.vat.held.length
          walked := true } }
    | _, _ => s)

/-- SCRAPER_DONE: the walk has ended, and the name may claim again (R271). -/
def execScraperDone (s : State) : Host.Outcome State Fault Refusal :=
  .next (match s.scraper.current with
    | some o =>
      if ¬ s.scraper.walked then s
      else
        let s1 := raiseAt (blockPlace .scraper) Ev.scraperDone o (s.scraper.swept % 2 ^ 32) s
        { s1 with
          vat := { s1.vat with declared := s1.vat.declared.filter (fun n => !(partyNames o).contains n) }
          scraper := { s1.scraper with
            returned := (s1.scraper.returned + s1.scraper.swept) % 2 ^ 32
            current := none
            swept := 0
            walked := false } }
    | none => s)

/-! ## Pipe faults (R436) -/

/-- PIPE_STEP_TIMEOUT: a step does not end within 8 core clocks (R436). -/
def execPipeStepTimeout (p : PipeId) (s : State) : Host.Outcome State Fault Refusal :=
  .next (if domainOn s (4 + p.val / 8) then declarePipe p 1 s else s)

/-- A queue's shaper tokens and deficit restart at 0 (R431). -/
def restartQueue (q : Nat) (s : State) : State :=
  setWheel q 0 (setQ q { qst s q with
    tokens := 0
    tokensAt := s.now
    deficit := 0 } s)

/-- A bundle's shaper tokens restart at 0 and its tags from V (R299, R431). -/
def restartBundle (port b : Nat) (s : State) : State :=
  setWheel (bundleShaper port b) 0 (setBundle port b { bundleRun s port b with
    tokens := 0
    tokensAt := s.now
    offer := none
    done := (portRun s port).vtime } s)

/-- The queues of a list. -/
def restartQueues : List Nat → State → State
  | [], s => s
  | q :: qs, s => restartQueues qs (restartQueue q s)

/-- The bundles of a list, as port slot × 4,096 + bundle. -/
def restartBundles (p : Nat) : List Nat → State → State
  | [], s => s
  | i :: is, s => restartBundles p is (restartBundle (16 * p + i / 4096) (i % 4096) s)

/-- PIPE_RESET_COMPLETE: programs, profiles and controls are those of the live generation; policers, shapers, deficits
and tags restart (R431, R436). -/
def execPipeResetComplete (p : PipeId) (s : State) : Host.Outcome State Fault Refusal :=
  let x := pipeOf s p
  .next (if ¬ x.faulted ∨ x.resetDone then s
    else
      let s1 := restartBundles p (pipeNodes s s.epoch.live s.epoch.live p)
        (restartQueues (pipeQueues s s.epoch.live p) (reloadPipe p (setPipe p { x with resetDone := true } s)))
      { s1 with sched := { s1.sched with policers := s1.sched.policers.filter (fun r => r.1 / 8192 != p.val) } })

/-- PIPE_RESTORED: the pipe starts frames again in the live epoch, unless it was declared twice within 1 s (R436). -/
def execPipeRestored (p : PipeId) (s : State) : Host.Outcome State Fault Refusal :=
  let x := pipeOf s p
  .next (if x.faulted ∧ x.resetDone ∧ ¬ x.heldDown then
      raise (.pipe p) Ev.pipeRestored p (setPipe p { x with
        faulted := false
        resetDone := false } { s with epoch := { s.epoch with pipeEpoch := mset 0 s.epoch.pipeEpoch p s.epoch.live } })
    else s)

/-- SCRAPER_PIPE_RESTORE's bits: the pipes named may be restored (R436, R444). -/
def restorePipes (v : Nat) : List Nat → State → State
  | [], s => s
  | p :: ps, s => restorePipes v ps
      (if bitOf v p then setPipe p { pipeOf s p with heldDown := false } s else s)

/-! ## Repairs (R431, R433, R435) -/

/-- The block that repairs an entry of a table type (R25, R446). -/
def tableBlock (type inst idx : Nat) : Block :=
  match type with
  | 0x01 => .l2b (idx / 1048576 % 2)
  | 0x02 => .rslice (idx / 40960 % 64)
  | 0x03 => .rmap false
  | 0x04 => .nhop 0
  | 0x05 => .nhop 0
  | 0x08 => .frag
  | 0x09 => .police (idx / 8192 % 32)
  | 0x0A => .pipe (inst % 32)
  | 0x0B => .pipe (inst % 32)
  | 0x0C => .pipe (inst % 32)
  | 0x0D => .qmgr
  | 0x0E => .sched (inst % 32)
  | 0x0F => .gate (inst / 16 % 32)
  | 0x10 => .mirror
  | 0x11 => .fabric
  | 0x40 => .qcache
  | 0x41 => .pager
  | 0x42 => .pager
  | 0x43 => .qmgr
  | 0x44 => .sched (inst % 32)
  | _ => .treew 0

/-- Whether a handle names an entry that TABLE_REPAIRED may name (R125, R446). -/
def repairable (type inst idx : Nat) : Bool :=
  match type with
  | 0x01 => inst == 0 && decide (idx < 2097152)
  | 0x02 => inst == 0 && decide (idx < 2621440)
  | 0x40 => inst == 0 && decide (idx < 1048576)
  | 0x41 => inst == 0 && decide (idx < 8 * 6291456)
  | 0x42 => inst == 0 && decide (idx < 8 * 6291456)
  | 0x43 => inst == 0 && decide (idx < 1048576)
  | 0x44 => decide (inst < 32) && decide (idx < 65536)
  | _ => indexedOk type inst idx false

/-- The payload of TABLE_REPAIRED and TABLE_LOST (R446). -/
def repairPayload (type inst idx : Nat) : Nat := type + satField 8 9 inst + satField 18 30 idx

/-- Values without a shadow restart when their parity fails (R431). -/
def restartValue (type inst idx : Nat) (s : State) : State :=
  match type with
  | 0x09 => { s with sched := { s.sched with policers := mdel s.sched.policers idx } }
  | 0x43 => restartQueue idx s
  | 0x44 => restartBundle (16 * inst + idx / 4096) (idx % 4096) s
  | _ => s

/-- An entry whose shadow copies fail as well is no longer valid (R433). -/
def loseEntry (type inst idx : Nat) (s : State) : State :=
  match type with
  | 0x01 => setL2 (mdel s.l2.entries idx) s
  | 0x02 =>
    let n := idx / 40960
    let at_ := fun (p : Nat × Route) => decide (p.1 ≤ idx % 40960)
      && decide (idx % 40960 < p.1 + rowsOf p.2.v6 p.2.length)
    { s with routes := { s.routes with
      slices := mset [] s.routes.slices n (((rowNumbers s n).filter (fun p => !at_ p)).map (fun p => p.2)) } }
  | 0x06 => { s with tree := { s.tree with nodes := mdel s.tree.nodes idx } }
  | _ => if type < 0x40 then tblPut s.epoch.live type inst idx 0 s else s

/-- One detection: the entry is rewritten from its shadow, which agrees with it, or is lost (R431, R433). -/
def repairEntry (type inst idx : Nat) (lost : Bool) (s0 : State) : State :=
  let b := tableBlock type inst idx
  let key := tblKey type inst idx
  let s := { s0 with badEntries := s0.badEntries.filter (fun k => k != key) }
  if lost then
    let s1 := loseEntry type inst idx s
    raise b Ev.tableLost (repairPayload type inst idx)
      (if s1.lostEntries.contains key then s1 else { s1 with lostEntries := s1.lostEntries ++ [key] })
  else raise b Ev.tableRepaired (repairPayload type inst idx) (restartValue type inst idx s)

/-- The route domain of a table type: 0 PD08, 1 PD09. -/
def routeDomain (type idx : Nat) : Nat :=
  if type = 0x01 then idx / 1048576 % 2 else if type = 0x02 then idx / 40960 / 32 % 2 else 0

/-- TABLE_REPAIR: an entry that failed parity is repaired from its shadow, or is lost, or waits in a full repair queue
(R433). -/
def execTableRepair (handle : BitVec 64) (outcome : RepairOutcome) (s : State) : Host.Outcome State Fault Refusal :=
  let type := hType handle.toNat
  let inst := hInst handle.toNat
  let idx := hIndex handle.toNat
  .next (if ¬ repairable type inst idx then s
    else match outcome with
      | .repaired => repairEntry type inst idx false s
      | .lost => repairEntry type inst idx true s
      | .overflow n =>
        if 1 ≤ type ∧ type ≤ 5 then
          let d := routeDomain type idx
          raise (.rslice (32 * d)) Ev.tableRepairOverflow (d + n.toNat * 2) s
        else s)

/-- The payload of VAT_REPAIRED (R446). -/
def vatRepaired (pool idx : Nat) (record : Bool) (s : State) : State :=
  raise .vat Ev.vatRepaired (pool + b2n record * 8 + satField 4 29 idx) s

/-- VAT_WORD_REBUILD: a bitmap word fails and is held out of allocation, or has been rebuilt from the holding records;
or a holding record fails and its buffer stays out of its pool (R435). -/
def execVatWordRebuild (pool : Fin 8) (index : Nat) (part : VatPart) (s : State) : Host.Outcome State Fault Refusal :=
  let w := (pool.val, index)
  .next (match part with
    | .wordFails =>
      if s.vat.rebuilding.contains w then s
      else { s with vat := { s.vat with rebuilding := s.vat.rebuilding ++ [w] } }
    | .wordRebuilt =>
      if s.vat.rebuilding.contains w then
        vatRepaired pool index false { s with vat := { s.vat with
          rebuilding := s.vat.rebuilding.filter (fun x => x != w) } }
      else s
    | .recordFails =>
      let h := handle pool index
      if ¬ inStorage s pool index ∨ s.vat.badRecords.contains h then s
      else
        vatRepaired pool index true { s with vat := { s.vat with
          badRecords := s.vat.badRecords ++ [h]
          held := if mhas s.vat.held h then s.vat.held else mput s.vat.held h { owner := 0, holds := 1, chain := 0 } } })

/-! ## Configuration registers (R432) -/

/-- Bits of a register have flipped: it is in the condition until it is written (R432). -/
def parityFlip (addr flips : Nat) (s : State) : State :=
  match regAt addr with
  | none => s
  | some (b, r) =>
    let kept := (specOf b r).rw ||| (specOf b r).rwl
    let stored := rwBits s b r ||| (liveBank s).rwlBits b r
    if addr % 16 ≠ 0 ∨ ¬ domainOn s (addrDomain addr) ∨ flips &&& kept = 0 ∨ flipsOf s b r ≠ 0 then s
    else
      let s1 := { s with regs := { s.regs with parity := s.regs.parity ++ [(addr, flips &&& kept)] } }
      let s2 := raiseAt (blockPlace b) Ev.cfgParity (addr + 6 * 2 ^ 32) (stored ^^^ (flips &&& kept)) s1
      if timeParity s2 then enterTime .holdover s2 else s2

/-- CFG_PARITY_CHECK: the check of one register finds which of its stored bits have flipped (R432). -/
def execCfgParityCheck (addr flips : BitVec 32) (s : State) : Host.Outcome State Fault Refusal :=
  .next (parityFlip addr.toNat flips.toNat s)

/-! ## The Triad (R437 to R440) -/

/-- RESYNC_COMPLETE: the isolated channel runs again and the three resume together (R439). -/
def execResyncComplete (s : State) : Host.Outcome State Fault Refusal :=
  .next (match s.triad.mode, s.triad.resyncing with
    | .resync, some (c, at0) =>
      raise .triad Ev.triadResynced (c + satField 2 12 ((s.now - at0) / 1000)) { s with triad := { s.triad with
        mode := .triplex
        inVote := s.triad.inVote + 2 ^ c
        resyncing := none
        sramPass := true } }
    | _, _ => s)

/-- SRAM_PASS_COMPLETE: the three SRAM copies agree again, or a line on which all three differ halts the Triad (R439). -/
def execSramPassComplete (allDiffer : Bool) (s : State) : Host.Outcome State Fault Refusal :=
  .next (if ¬ s.triad.sramPass then s
    else
      let s1 := { s with triad := { s.triad with
        sramPass := false
        coreParity := [] } }
      if allDiffer ∧ s.triad.mode ≠ .halted then triadHalt 4 s1 else s1)

/-- HEADLESS_LIMIT_EXPIRY: headless operation has lasted headless_limit (R440). -/
def execHeadlessLimitExpiry (s : State) : Host.Outcome State Fault Refusal :=
  .next (if s.triad.mode = .halted ∧ ¬ s.triad.headlessStopped
      ∧ s.triad.haltedAt + rwField s .triad 1 16 0 * psSec ≤ s.now then headlessStop s else s)

/-- TRIAD_RETURN of retired channels: the lowest resyncs now (R439, R444). -/
def returnChannels (v : Nat) (s : State) : State :=
  match [0, 1, 2].filter (fun c => bitOf v c) with
  | [] => s
  | c :: _ =>
    if s.triad.mode = .halted then { s with triad := { s.triad with retired := s.triad.retired - v } }
    else { s with triad := { s.triad with
      retired := s.triad.retired - v
      mode := .resync
      resyncing := some (c, s.now)
      faultHeld := faultLow s } }

/-! ## AUDIT (R140, R441) -/

/-- AUDIT.RUN kd, ka (R140). -/
def execAuditRun (e : EngineId) (kd ka : KReg) (s : State) : Host.Outcome State Fault Refusal :=
  .next (runDev e .audit (encDev 0x2C 0 kd ka 0 0) kd (fun s =>
    let v := (kget s e ka).toNat
    if 64 ≤ v then .done (result rRange 0) s
    else if v = 0 then .done (result rNone 0) s
    else if s.triad.audit.isSome then .done (result rBusy 0) s
    else .done (result rPending 0) { s with triad := { s.triad with audit := some v } }) s)

/-- AUDIT_FAIL of a scope and its item (R446). -/
def auditFail (scope item : Nat) (s : State) : State :=
  raise .triad Ev.auditFail (2 ^ scope + satField 8 40 item) s

/-- A channel against the voted time at one tenth of the tolerances (R441). -/
def auditRefOk (s : State) (x : Nat) : Bool :=
  let v := [0, 1, 2].filter (fun y => (refOf s y).voted)
  let freqs := v.map (fun y => (refOf s y).freq)
  let f := match freqs with
    | [a] => a
    | [a, b] => (a + b) / 2
    | [a, b, c] => max (min a b) (min (max a b) c)
    | _ => (refOf s x).freq
  v.isEmpty || refsAgree s (refOf s x).phase (refOf s x).freq s.time.offset f 10

/-- Scope 1: the qualified channels of a list; the number that failed and the state. -/
def auditRefs : List Nat → State → Nat × State
  | [], s => (0, s)
  | x :: xs, s =>
    let r := refOf s x
    if ¬ r.qualified then auditRefs xs s
    else if auditRefOk s x then auditRefs xs (setRef x { r with auditOut := false } s)
    else
      let s1 := auditFail 1 x (setRef x { refOf (voteOut x 2 s) x with auditOut := true } (voteOut x 2 s))
      let k := auditRefs xs s1
      (k.1 + 1, k.2)

/-- Whether a descriptor, a queue, a program or the hold table names a held buffer (R435, R441). -/
def bufferNamed (s : State) (h : Nat) : Bool :=
  let g := govern s h
  let r := mget {} s.vat.held g
  s.vat.holdTable.any (fun e => e.1 == g)
    || (hPool h == 0 && s.descs.any (fun d => d.2.firstCell == hIdx g))
    || (hPool h == 7 && mhas s.descs (hIdx h))
    || (hPool h == 5 && s.qm.states.any (fun q => q.2.pages.contains (hIdx h)))
    || (!s.vat.badRecords.contains h && !r.ended && !([0, 1, 2, 3].contains (ownerKind r.owner)))

/-- What a pass finds beyond scope 1: the scope and the state after its handling (R441). -/
def auditFinding (f : AuditFinding) (s : State) : Nat × State :=
  match f with
  | .triadChannel c => (0, auditFail 0 c.val (voteOutput eTriad (.differs c) 1 0 s).2)
  | .entry handle lost =>
    let type := hType handle.toNat
    let idx := hIndex handle.toNat
    (2, auditFail 2 (type + idx * 256) (repairEntry type (hInst handle.toNat) idx lost s))
  | .register addr flips => (3, auditFail 3 addr.toNat (parityFlip addr.toNat flips.toNat s))
  | .buffer handle =>
    let h := handle.toNat
    let s1 := if mhas s.vat.held h ∧ ¬ bufferNamed s h then freeBuffer h s else s
    (4, auditFail 4 h (vatRepaired (hPool h) (hIdx h) true
      { s1 with vat := { s1.vat with badRecords := s1.vat.badRecords.filter (fun b => b != h) } }))
  | .link n => (5, auditFail 5 n.val (killLink n 5 s))

/-- The findings of a list that belong to the scopes of the pass: the scopes that found something and the state. -/
def auditFindings (scopes : Nat) : List AuditFinding → Nat → State → Nat × State
  | [], m, s => (m, s)
  | f :: fs, m, s =>
    let r := auditFinding f s
    if bitOf scopes r.1 then auditFindings scopes fs (m ||| 2 ^ r.1) r.2 else auditFindings scopes fs m s

/-- AUDIT_DONE: the pass ends; `found` lists the mismatches of scopes 0 and 2 to 5 (R140, R441). -/
def execAuditDone (found : List AuditFinding) (s : State) : Host.Outcome State Fault Refusal :=
  .next (match s.triad.audit with
    | none => s
    | some scopes =>
      let r1 := if bitOf scopes 1 then auditRefs [0, 1, 2] s else (0, s)
      let r := auditFindings scopes found (if r1.1 = 0 then 0 else 2) r1.2
      let s1 := { r.2 with triad := { r.2.triad with audit := none } }
      raise .triad Ev.auditDone (scopes + r.1 * 256) s1)

/-! ## The ledger's ring (R442) -/

/-- LEDGER_WRITE: one entry per management clock, at the earliest in the clock after the event's; when space returns
after a loss, a LEDGER_OVERRUN entry carries the count (R442). -/
def execLedgerWrite (s : State) : Host.Outcome State Fault Refusal :=
  .next (match s.ledger.fifo with
    | [] => s
    | e :: es =>
      let k := mgmtClock s
      if k < e.clock + 1 ∨ k < s.ledger.written then s
      else
        let l := s.ledger
        let s1 := { s with ledger := { l with
          fifo := es
          ring := mput l.ring (l.head % 4096) { e with seq := l.head }
          head := (l.head + 1) % 2 ^ 32
          written := k + 1 } }
        let s2 := perfEvent { code := 0x070, master := placeMaster e.place } s1
        if s2.ledger.overrun = 0 then s2
        else
          let n := s2.ledger.overrun
          raise .ledger Ev.ledgerOverrun (min n (2 ^ 32 - 1)) { s2 with ledger := { s2.ledger with overrun := 0 } })

end Sys2Proof.Machine
end

