-- ==== Sys2Proof/Machine/RegRead.lean ====
section
/-!
DEFINITION. What a read of control space returns (R12, R24, R25, R29, R467, R468, R489): the READY map, the RO fields
of every register map, the 64-bit latches, and the access itself with the events of R24 and R25.
-/
namespace Sys2Proof.Machine

/-- Bits of a list, the first the lowest. -/
def bitsOf : List Bool → Nat
  | [] => 0
  | b :: bs => b2n b + 2 * bitsOf bs

/-- The low and the high word of a 64-bit number. -/
def word64 (hi : Bool) (v : Nat) : Nat := if hi then v / 2 ^ 32 % 2 ^ 32 else v % 2 ^ 32

/-! ## The READY map (R486) -/

/-- Whether an engine runs: it executes or waits (R119). -/
def engineRuns (s : State) (e : Nat) : Bool :=
  let r := (engine s e).run
  r == .running || r == .waiting

/-- Whether a tile is ready (R389, R486). -/
def tileReady (s : State) (t : Nat) : Bool :=
  bitOf s.tilePll t && engineRuns s (eTile t 0) && engineRuns s (eTile t 1)

/-- Whether a lane quad is ready: some port or link has its lowest lane in it, and each of them is up (R486). -/
def quadReady (s : State) (q : Nat) : Bool :=
  let ns := (List.range 4).map (fun i => 4 * q + i)
  let ports := ns.filter (portExists s)
  let links := ns.filter (fun n => laneMode s n == 0xF)
  !(ports.isEmpty && links.isEmpty) && ports.all (fun n => (macOf s n).up) && links.all (fun n => (linkOfNo s n).live)

/-- A bit of the READY map (R486). -/
def readyBit (s : State) (i : Nat) : Bool :=
  if i < 32 then pipeReady s i
  else if i < 96 then domainOn s (8 + (i - 32) / 32)
  else if i < 104 then (chan s (i - 96)).ready
  else if i < 112 then tileReady s (i - 104)
  else if 128 ≤ i then quadReady s (i - 128)
  else match i with
    | 112 => engineRuns s eTriad && s.triad.mode != .halted
    | 113 => engineRuns s eTime
    | 114 => !s.time.notSet && s.time.state == .locked
    | 115 => domainOn s 3
    | 116 => domainOn s 3
    | 117 => domainOn s 10
    | 118 => domainOn s 11
    | 119 => domainOn s 12 && (List.range 8).all (fun c => (chan s c).ready) && s.qm.copyLost.isEmpty
    | 120 => domainOn s 13
    | 121 => domainOn s 8 && domainOn s 9
    | 122 => domainOn s 8 && domainOn s 9
    | 123 => domainOn s 8 && domainOn s 9
    | 124 => domainOn s 3
    | 125 => rwField s .ctlport 0 0 0 == 1 && s.ctl.keys.any (fun k => k.2.isSome)
    | 126 => s.roll.admitted
    | _ => s.boot.committed

/-- Word w of the READY map (R488). -/
def readyWord (s : State) (w : Nat) : Nat := bitsOf ((List.range 32).map (fun i => readyBit s (32 * w + i)))

/-- The words of the READY map that differ from eight acknowledge registers from register r of a block. -/
def readyDiff (s : State) (b : Block) (r : Nat) : Nat :=
  bitsOf ((List.range 8).map (fun w => readyWord s w != rwField s b (r + w) 31 0))

/-! ## Interrupt sources (R141, R142) -/

/-- The block and register of an engine's pending register (R141). -/
def intBlock (e : Nat) : Block :=
  if e = 0 then .triad else if e = 1 then .time else if e = 18 then .starter else .tcore ((e - 2) / 2) ((e - 2) % 2)

/-- Whether some control queue of this unit has a frame at its head (R142, R459). -/
def ctlqPending (s : State) : Bool :=
  s.qm.states.any (fun p => !p.2.head.isEmpty && (qcfg s p.1).role == 3)

/-- Sources whose condition no rule of the spec gives a cause in the model's state: the Triad's time alarm, mailboxes,
tile timers and records, the QSPI read FIFO, the sequencer's request (notes/assumptions 87). -/
def freeSources (e : Nat) : Nat :=
  if e = eTriad then 8 else if e = eTime then 8 else if e = eStarter then 5 else 15

/-- The pending bits whose condition is in the unit's state (R142). -/
def knownPending (s : State) (e : Nat) : Nat :=
  if e = eTriad then
    bitsOf [s.ledger.head != rwField s .ledger 2 31 0, ctlqPending s, rwField s .i3c 1 31 0 != 0,
      false, s.perf.ovf != 0, readyDiff s .ready 8 != 0]
  else if e = eTime then bitsOf ([0, 1, 2].map (fun x => (mget {} s.time.refs x).unread))
  else if e = eStarter then bitsOf [false, rwField s .i3c 2 31 0 != 0]
  else 0

/-- The pending bits of an engine; those of `freeSources` are free at every instant, and the same for every read in it
(R142). -/
def intPending (s : State) (e : Nat) : Nat :=
  knownPending s e ||| Sys2Proof.Config.intSource e s.now &&& freeSources e

/-- The sources that are pending and enabled (R87, R141). -/
def intEnabled (s : State) (e : Nat) : Nat := intPending s e &&& rwField s (intBlock e) 9 15 0

/-! ## The ledger (R443, R444) -/

/-- Word w of an entry (R443). -/
def Event.word (e : Event) (w : Nat) : Nat :=
  match w with
  | 0 => e.code + e.place.1 * 2 ^ 16 + b2n e.holdover * 2 ^ 21 + b2n e.notSet * 2 ^ 22
  | 1 => e.seq
  | 2 => e.sec % 2 ^ 32
  | 3 => e.ns
  | 4 => e.payload % 2 ^ 32
  | 5 => e.payload / 2 ^ 32 % 2 ^ 16
  | 6 => e.ext
  | _ => 0

/-- Word w of the entry numbered seq; 0 where it is not in the ring (R442). -/
def ledgerWord (s : State) (seq w : Nat) : Nat :=
  let e := mget {} s.ledger.ring (seq % 4096)
  if mhas s.ledger.ring (seq % 4096) ∧ e.seq = seq then e.word w else 0

/-! ## Read-only fields by block -/

/-- PD00's RO fields but the ledger's. -/
def roAon (s : State) (b : Block) (r : Nat) : Nat :=
  match b, r with
  | .aon, 0 => 0x92042054
  | .aon, 1 => Sys2Proof.Config.pidLow.toNat
  | .aon, 2 => 0x50A9
  | .aon, 3 => s.boot.mode
  | .i3c, 0 => s.i3c.addr.getD 0 + b2n s.i3c.addr.isSome * 2 ^ 7 + b2n s.i3c.ibiEnabled * 2 ^ 8
      + b2n s.i3c.hjEnabled * 2 ^ 9 + b2n s.i3c.inHdr * 2 ^ 10
  | .i3c, 15 => bitsOf [maskedFaults s != rwField s .i3c 13 7 0, rwField s .i3c 3 31 0 != 0, readyDiff s .i3c 5 != 0,
      s.ledger.head != rwField s .i3c 4 31 0]
  | .i3c, 16 => s.i3c.errors
  | .starter, 0 =>
      (match s.boot.phase with
        | .rom => 0 | .held => 1 | .loading => 2 | .applying => 3 | .running => 4 | .recovery => 5 | .mould => 6)
      + s.boot.slot * 2 ^ 4 + s.boot.mould * 2 ^ 6 + s.boot.half * 2 ^ 10 + s.boot.format * 2 ^ 11
  | .starter, 5 => s.boot.mouldResult
  | .starter, 8 => intPending s eStarter
  | .pwrseq, 1 => s.power.on
  | .pwrseq, 2 => b2n (powerOrder.any (mayPower s))
  | .qspi, 0 => b2n s.boot.found + (if s.boot.found then s.flash.sizeMib * 2 + min 133 s.flash.rateMhz * 2 ^ 10 else 0)
      + b2n (match s.upd.op with
        | some (.settings _ _) => true
        | _ => false) * 2 ^ 18
  | .ready, r => if r ≤ 7 then readyWord s r else 0
  | _, _ => 0

/-- The hottest die or tile sensor, the lowest where several are: reading as a signed number, and sensor (R534). -/
def hottest (s : State) : Int × Nat :=
  (List.range 10).foldl (fun m i =>
    let t := signed 11 (mget 0 s.sensor.temps i)
    if i = 0 ∨ m.1 < t then (t, i) else m) (0, 0)

/-- Whether a sensor is at or above its alarm level (R533). -/
def sensorAlarm (s : State) (i : Nat) : Bool :=
  let level : Nat := if i < 10 then rwField s .sensor 3 7 0 else 90
  decide ((level * 4 : Nat) ≤ signed 11 (mget 0 s.sensor.temps i))

/-- thermal_alarm (R533, R534). -/
def thermalAlarm (s : State) : Bool := (List.range 18).any (sensorAlarm s)

/-- SENSOR's RO fields (R534). -/
def roSensor (s : State) (r : Nat) : Nat :=
  match r with
  | 0 => b2n (s.sensor.railOut != 0) + b2n (thermalAlarm s) * 2 + b2n s.power.tripHold * 4
  | 1 => s.sensor.railOut
  | 2 => s.sensor.targetA + s.sensor.targetB * 2 ^ 16
  | 4 => twos 11 (hottest s).1 + (hottest s).2 * 2 ^ 16
  | _ => if 16 ≤ r ∧ r ≤ 33 then mget 0 s.sensor.temps (r - 16)
    else if 48 ≤ r ∧ r ≤ 56 then mget 0 s.sensor.rails (r - 48) else 0

/-- LEDGER's RO fields (R444). -/
def roLedger (s : State) (r : Nat) : Nat :=
  match r with
  | 0 => s.ledger.head
  | 1 => s.ledger.dropped
  | 3 => faultStatus s
  | 5 => ((s.regs.parity.head?).map (fun p => p.1)).getD 0
  | _ => if 16 ≤ r ∧ r % 8 ≠ 0 then ledgerWord s (rwField s .ledger (r / 8 * 8) 31 0) (r % 8 - 1) else 0

/-- The codes of TRIAD_STATUS.mode. -/
def TriadMode.code : TriadMode → Nat
  | .triplex => 0 | .resync => 1 | .duplex => 2 | .halted => 3

/-- TRIAD's RO fields (R444). -/
def roTriad (s : State) (r : Nat) : Nat :=
  match r with
  | 0 => s.triad.mode.code + s.triad.inVote * 4 + s.triad.retired * 32
  | 2 => mget 0 s.triad.isolations 0
  | 3 => mget 0 s.triad.isolations 1
  | 4 => mget 0 s.triad.isolations 2
  | 5 => if s.triad.mode = .halted then min 86400 ((s.now - s.triad.haltedAt) / psSec) else 0
  | 8 => intPending s eTriad
  | _ => 0

/-- CTLPORT's RO fields (R466). -/
def roCtlport (s : State) (r : Nat) : Nat :=
  let c := mget {} s.ctl.chans (rwField s .ctlport 10 5 0)
  match r with
  | 0 => b2n (mget none s.ctl.keys 0).isSome * 2 + b2n (mget none s.ctl.keys 1).isSome * 4
  | 11 => c.next % 2 ^ 32
  | 12 => c.held.length + b2n (!c.held.isEmpty) * 2 ^ 7
  | 13 => c.session.getD 0
  | 14 => s.ctl.fails
  | 15 => s.ctl.duplicates
  | 16 => s.ctl.stale
  | 17 => s.ctl.applied
  | _ => 0

/-- The codes of R412. -/
def TimeState.code : TimeState → Nat
  | .free => 0 | .locked => 1 | .switchover => 2 | .holdover => 3

/-- PD02's RO fields (R428 to R430). -/
def roTime (s : State) (b : Block) (r : Nat) : Nat :=
  match b with
  | .time =>
    (match r with
    | 3 => s.time.state.code + b2n s.time.slew.isSome * 8 + b2n s.time.notSet * 16
        + bitsOf ([0, 1, 2].map (fun x => (refOf s x).voted)) * 2 ^ 5
        + bitsOf ([0, 1, 2].map (fun x => (refOf s x).qualified)) * 2 ^ 8
    | 8 => intPending s eTime
    | 10 => twos 32 s.time.offset
    | _ => 0)
  | .refin =>
    let c := refOf s (r / 16)
    (match r % 16 with
    | 2 => bitsOf [c.freqPresent, c.ppsPresent, c.qualified, c.voted]
    | 3 => twos 32 c.phase
    | 4 => twos 32 c.freq
    | 5 => c.capNs
    | 6 => c.capFrac + b2n c.unread * 2 ^ 16
    | _ => 0)
  | .tsq =>
    let q := mget {} s.time.tsq (r / 64)
    let rec0 := q.recs.headD {}
    let sec := rec0.time / secUnits
    (match r % 64 with
    | 0 => q.recs.length + b2n (q.recs.length == 128) * 2 ^ 8
    | 1 => if q.recs = [] then 0 else rec0.identifier + rec0.port * 2 ^ 16 + b2n rec0.oneStep * 2 ^ 25
        + b2n rec0.aborted * 2 ^ 26 + b2n rec0.holdover * 2 ^ 27 + b2n rec0.notSet * 2 ^ 28
    | 2 => if q.recs = [] then 0 else word64 false sec
    | 3 => if q.recs = [] then 0 else word64 true sec
    | 4 => if q.recs = [] then 0 else rec0.time % secUnits / 65536
    | 5 => if q.recs = [] then 0 else rec0.time % 65536 + rec0.recSeq * 2 ^ 16
    | 7 => q.lost
    | _ => 0)
  | _ => 0

/-- VAT's RO fields (R278). -/
def roVat (s : State) (r : Nat) : Nat :=
  if r = 5 then b2n s.vat.fill.isSome * 2 ^ 11 + b2n s.vat.fillRefused * 2 ^ 12
  else if 8 ≤ r ∧ r ≤ 15 then freeCount s (r - 8)
  else if 64 ≤ r ∧ r ≤ 71 then mget 0 s.vat.empties (r - 64)
  else match r with
    | 72 => s.vat.spills
    | 73 => s.vat.holdTable.length
    | 74 => s.vat.declaredDrops
    | _ => 0

/-- FABRIC's RO fields (R358). -/
def roFabric (s : State) (r : Nat) : Nat :=
  let live := (liveLinks s).map (fun l => l.1)
  match r with
  | 1 => s.roll.unit + b2n s.roll.numbered * 2 ^ 10 + s.roll.incarnation * 2 ^ 11 + b2n s.roll.master * 2 ^ 19
      + b2n s.roll.admitted * 2 ^ 20
  | 6 => s.boot.fw.skovMin % 256 + s.boot.fw.skovMax % 256 * 2 ^ 8 + s.roll.systemLevel * 2 ^ 16
  | 7 => bitsOf ((List.range 32).map (fun k => live.contains k))
  | 8 => bitsOf ((List.range 32).map (fun k => live.contains (32 + k)))
  | 11 => s.fabric.cellDrops
  | 12 => s.fabric.unitsLost
  | 13 => s.fabric.systemEpoch
  | _ => 0

/-- The other RO fields of PD03 (R202, R295, R308, R343, R444, R491). -/
def roXbar (s : State) (b : Block) (r : Nat) : Nat :=
  match b, r with
  | .qmgr, 0 => s.qm.journal.length
  | .qmgr, 1 => (s.qm.states.filter (fun p => p.2.pinned)).length
  | .qmgr, 2 => s.qm.locks.length
  | .wheel, 1 => s.sched.wheel.length
  | .wheel, 2 => s.sched.wheelLate
  | .scraper, 0 => b2n s.scraper.current.isSome + s.scraper.pending.length * 2
  | .scraper, 1 => s.scraper.current.getD 0
  | .scraper, 4 => s.scraper.returned
  | .reseq, 1 => holdContexts s
  | .reseq, 2 => heldCount s
  | .reseq, 3 => s.fabric.partialFrames.length
  | .frag, 2 => (s.tree.frags.filter (fun p => !fragExpired s s.now p.2)).length
  | .frag, 3 => s.tree.hits
  | .frag, 4 => s.tree.misses
  | .frag, 5 => s.tree.full
  | .frag, 6 => s.tree.epochMisses
  | .epoch, 0 => epochStatus s
  | .epoch, 3 => s.epoch.result + s.epoch.resultEpoch * 2 ^ 8
  | _, _ => 0

/-- A pipe's RO fields (R158, R195, R303, R311, R316). -/
def roPipe (s : State) (b : Block) (r : Nat) : Nat :=
  match b with
  | .pipe p =>
    if r = 6 then backlogKib s p + b2n (decide (fifoBytes < backlogBytes s p + 16383)) * 2 ^ 31
    else if r = 7 then pipeEp s p + b2n (cuttingOver s && pipeEp s p != s.epoch.live) * 2 ^ 16 else 0
  | .treew p => if r = 0 then b2n (pipeOf s p).paused + b2n (pipeOf s p).loading * 2 else (pipeOf s p).walkErrors
  | .police p => mget 0 s.sched.foreign p
  | .sched p =>
    if r < 16 then 0
    else
      let port := 16 * p + (r - 16)
      b2n (mhas s.sched.stops (9 * port)) + bitsOf ((List.range 8).map (fun i => mhas s.sched.stops (9 * port + 1 + i))) * 2
        + 0xDC * 2 ^ 24
  | .gate p =>
    let g := gateRun s (16 * p + r / 16)
    (match r % 16 with
    | 5 => g.states + b2n g.running.isSome * 2 ^ 16 + b2n (g.pending.isSome || g.pendingOff) * 2 ^ 17 + g.entry * 2 ^ 18
    | 6 => g.startTime % secUnits / 65536
    | 7 => word64 false (g.startTime / secUnits)
    | 8 => word64 true (g.startTime / secUnits)
    | _ => 0)
  | _ => 0

/-- Rows held as replicas or twin copies in the live bank (R243). -/
def extraRows (s : State) : Nat :=
  let rows := fun (rs : List Route) => (rs.map (fun r => rowsOf r.v6 r.length)).foldl (· + ·) 0
  let all := s.routes.slices.flatMap (fun p => p.2.filter (fun r => (r.result s.epoch.live).isSome))
  rows all - rows (routesOf s s.epoch.live)

/-- Whether a pool of a slice of a domain has run empty while another has rows: it is being refilled (R239, R243). -/
def refillRuns (s : State) (d : Nat) : Bool :=
  s.routes.slices.any (fun p => p.1 / 32 == d && (List.range 4).any (fun g => poolRows s p.1 g == 0)
    && (List.range 4).any (fun g => poolRows s p.1 g != 0))

/-- The RO fields of PD08 and PD09 (R223, R224, R243, R248). -/
def roRoute (s : State) (b : Block) (r : Nat) : Nat :=
  match b with
  | .rslice n => if r = 0 then sliceRows s n else if r = 1 then mget 0 s.routes.searches n
      else mget 0 s.routes.overruns n
  | .rmap copy =>
    (match r with
    | 0 => if copy then rwField s (.rmap false) 0 7 0 else 0
    | 1 => if copy then rwField s (.rmap false) 1 31 0 else 0
    | _ => extraRows s)
  | .rshuf d =>
    let q := if d = 0 then s.routes.queue0 else s.routes.queue1
    if r = 0 then q.length + b2n (!q.isEmpty || refillRuns s d) * 2 ^ 13 else mget 0 s.routes.moves d
  | .l2b k =>
    let st := mget 0 s.l2.rehash k
    (match r with
    | 0 => mget 0 s.l2.seed k
    | 1 => if st = 0 then 0 else mget 0 s.l2.oldSeed k
    | 2 => b2n (st == 1) + b2n (st == 2) * 2 + (s.l2.entries.filter (fun p => p.1 / 1048576 == k)).length * 4
        + b2n (k == 0 && s.l2.flush.isSome) * 2 ^ 23
    | 22 => s.l2.learned
    | 23 => s.l2.moves
    | 24 => s.l2.evictions
    | 25 => s.l2.blocked
    | 26 => s.l2.drops
    | 27 => s.l2.conflicts
    | 28 => s.l2.rehashDrops
    | _ => 0)
  | .turner => if r = 1 then s.l2.removed else if r = 2 then turnerPosition s else 0
  | .nhop _ => if r = 0 then memberWords (shadowBank s) else memberWords (liveBank s)
  | _ => 0

/-- The RO fields of PD12 (R295). -/
def roPager (s : State) (b : Block) (r : Nat) : Nat :=
  match b, r with
  | .pager, 1 => readsOpen s
  | .pager, 2 => stagingKib s
  | .pager, 3 => s.qm.misses
  | .pager, 4 => s.qm.prefetches
  | .qcache, 1 => residentCount s
  | .qcache, 2 => s.qm.evictions
  | _, _ => 0

/-- PERFCTR's RO fields but the latched ones (R517, R525). -/
def roPerf (s : State) (r : Nat) : Nat :=
  if r < 4096 then
    let n := r / 16
    match r % 16 with
    | 5 => word64 false (mget 0 s.perf.value n)
    | 7 => word64 false (mget 0 s.perf.snap n)
    | 8 => word64 true (mget 0 s.perf.snap n)
    | 9 => b2n (bitOf s.perf.ovf n) + b2n (bitOf s.perf.snapOvf n) * 2
    | _ => 0
  else match r with
    | 4096 => b2n s.perf.snapping * 4
    | 4097 => s.perf.snapTime % secUnits / 65536
    | 4098 => word64 false (s.perf.snapTime / secUnits)
    | 4099 => word64 true (s.perf.snapTime / secUnits)
    | 4116 => s.perf.exportSeq
    | 4117 => s.perf.exportHandle
    | 4118 => s.perf.exportSkipped
    | _ => if 4104 ≤ r ∧ r ≤ 4111 then s.perf.ovf / 2 ^ (32 * (r - 4104)) % 2 ^ 32 else 0

/-- The port statistics counter a window register shows, both words (R521). -/
def portWindow (s : State) (r : Nat) : Nat :=
  let sel := effRw s .portstat (r / 128 * 128)
  let key := 64 * (sel % 512) + (r % 128 - 8) / 2
  if bitOf sel 9 then mget 0 s.perf.ports key else mget 0 s.portStats key

/-- The other RO fields of PD13 but the latched ones (R444, R519, R521, R523). -/
def roTelem (s : State) (b : Block) (r : Nat) : Nat :=
  match b with
  | .perfctr => roPerf s r
  | .flowctr =>
    let w := mget none s.perf.windows (r / 8)
    let pair := w.getD (0, 0)
    (match r % 8 with
    | 1 => b2n w.isSome
    | 2 => word64 false pair.1
    | 3 => word64 true pair.1
    | 4 => word64 false pair.2
    | 5 => word64 true pair.2
    | _ => 0)
  | .mirror => if r = 64 then editRecords s else mget 0 s.mirror.drops r
  | .whey =>
    if r = 0 then s.whey.last + s.whey.lastPort * 2 ^ 16
    else if r % 2 = 0 then word64 false (mget 0 s.whey.count (r / 2)) else 0
  | .portstat => if 8 ≤ r % 128 ∧ r % 2 = 0 then word64 false (portWindow s r) else 0
  | _ => 0

/-- CAVE's RO fields (R275, R279). -/
def roCave (s : State) (c r : Nat) : Nat :=
  let x := chan s c
  match r with
  | 0 => b2n x.ready + b2n x.failed * 2
  | 1 => x.corrected
  | 2 => x.uncorrected
  | 3 => x.retired.length
  | 4 => min 1000 ((x.moves.filter (fun t => decide (s.now < t + psMs))).length * 4096 * 1000 / 2000000000)
  | 5 => if x.ready then freeIn (takenOf s 5) [(6291456 * c, pool5Per s)] else 0
  | _ => 0

/-- A lane's, port's or link's RO fields, and a tile's (R322, R388, R389, R402). -/
def roTile (s : State) (b : Block) (r : Nat) : Nat :=
  match b with
  | .tile t => if r = 1 then bitsOf [bitOf s.tilePll t, engineRuns s (eTile t 0), engineRuns s (eTile t 1)] else 0
  | .tcore t k => if r = 8 then intPending s (eTile t k) else 0
  | .lane n =>
    let x := laneOf s n
    (match r with
    | 2 => x.state.code + bitsOf [x.signal, x.cdrLock, x.fecLock, x.eyeLow, x.rxRest, x.txRest] * 2 ^ 4
        + x.backoffStep * 2 ^ 10 + x.wakeTx * 2 ^ 13 + x.wakeRx * 2 ^ 20
    | 3 => x.eye + ((x.eyes.filter (fun e => decide (s.now < e.1 + 100 * psMs))).foldl (fun m e => min m e.2) x.eye) * 2 ^ 16
    | 5 => x.coef
    | 7 => x.known
    | 8 => b2n (x.checkerLocked && x.state == .test) * 2 ^ 6
    | 9 => x.prbsErrors
    | 10 => x.fails
    | 11 => x.losses
    | _ => 0)
  | .mac n =>
    let m := macOf s n
    if r = 4 then bitsOf [m.up, m.xoffSent, m.lpiTx, m.lpiRx] + laneMode s n * 2 ^ 4 else 0
  | .skov n =>
    let x := linkOfNo s n
    (match r with
    | 1 => bitsOf [x.up, x.dead, x.live] + x.peerUnit * 2 ^ 3 + b2n x.peerNumbered * 2 ^ 13 + x.peerIncarnation * 2 ^ 14
    | 2 => x.peerId % 2 ^ 32
    | 3 => x.peerId / 2 ^ 32 % 2 ^ 16
    | 4 => x.replays
    | 5 => x.crcErrors
    | 6 => x.deaths
    | _ => 0)
  | _ => 0

/-- The RO bits of a register. -/
def roBits (s : State) (b : Block) (r : Nat) : Nat :=
  match b with
  | .aon => roAon s b r | .i3c => roAon s b r | .starter => roAon s b r | .pwrseq => roAon s b r
  | .qspi => roAon s b r | .ready => roAon s b r
  | .sensor => roSensor s r
  | .ledger => roLedger s r
  | .triad => roTriad s r
  | .ctlport => roCtlport s r
  | .time => roTime s b r | .refin => roTime s b r | .tsq => roTime s b r
  | .vat => roVat s r
  | .fabric => roFabric s r
  | .xbar => roXbar s b r | .qmgr => roXbar s b r | .wheel => roXbar s b r | .scraper => roXbar s b r
  | .reseq => roXbar s b r | .frag => roXbar s b r | .epoch => roXbar s b r
  | .pipe _ => roPipe s b r | .treew _ => roPipe s b r | .police _ => roPipe s b r | .sched _ => roPipe s b r
  | .gate _ => roPipe s b r
  | .rslice _ => roRoute s b r | .rmap _ => roRoute s b r | .rshuf _ => roRoute s b r | .l2b _ => roRoute s b r
  | .turner => roRoute s b r | .nhop _ => roRoute s b r
  | .pager => roPager s b r | .qcache => roPager s b r
  | .perfctr => roTelem s b r | .flowctr => roTelem s b r | .mirror => roTelem s b r | .whey => roTelem s b r
  | .portstat => roTelem s b r
  | .cave c => roCave s c r
  | .tile _ => roTile s b r | .tcore _ _ => roTile s b r | .lane _ => roTile s b r | .mac _ => roTile s b r
  | .skov _ => roTile s b r

/-! ## The access -/

/-- A source's own number, for its latches. -/
def sourceNum : Source → Nat
  | .triad => 0 | .timeEngine => 1 | .tileCore t b => 2 + 2 * t.val + b.val | .starter => 18 | .i3c => 19
  | .inband c => 20 + c.val

/-- The 64-bit number whose low word a register shows, where the register map gives the pair a latch (R444, R468,
R517, R521). -/
def latchedPair (s : State) (b : Block) (r : Nat) : Option Nat :=
  match b with
  | .whey => if 2 ≤ r then some (mget 0 s.whey.count (r / 2)) else none
  | .perfctr => if r < 4096 ∧ (r % 16 = 5 ∨ r % 16 = 6) then some (mget 0 s.perf.value (r / 16)) else none
  | .portstat => if 8 ≤ r % 128 then some (portWindow s r) else none
  | _ => none

/-- Whether a register shows the high word of a latched pair. -/
def latchHigh (b : Block) (r : Nat) : Bool :=
  match b with
  | .perfctr => r % 16 == 6
  | _ => r % 2 == 1

/-- The key of a source's latch of a pair: that of the register of its high word. -/
def latchKey (src : Source) (b : Block) (r : Nat) : Nat := sourceNum src * 2 ^ 28 + regKey b r

/-- The stored bits of a register as a read returns them: RW, and RWL as the next commit will make them (R432, R489). -/
def storedBits (s : State) (b : Block) (r : Nat) : Nat :=
  let rwl := (bankOf s (if s.epoch.shadowOpen then s.epoch.live + 1 else s.epoch.live)).rwlBits b r
  (rwBits s b r + rwl) ^^^ flipsOf s b r

/-- What an access meets (R24, R25, R29). -/
inductive Access where
  | unmapped
  | off
  /-- A block of the shadow arrangement only: its RWL fields alone (R29). -/
  | staged (b : Block) (r : Nat)
  | mapped (b : Block) (r : Nat)
deriving DecidableEq, Repr

/-- How a MAC or link block stands in the live and shadow arrangements (R29). -/
def portBlock (s : State) (b : Block) (r : Nat) (link : Bool) (n : Nat) : Access :=
  if blockLive s s.epoch.live link n then .mapped b r
  else if s.epoch.shadowOpen ∧ blockLive s (s.epoch.live + 1) link n ∧ (specOf b r).rwl ≠ 0 then .staged b r
  else .unmapped

/-- What an access of a source to an address meets. While RST_N or PGOOD_IN is low only AON, I3C, LEDGER and READY
answer (R452); the I3C host does not reach blocks 0 to 3 of PD01 (R449). -/
def accessOf (s : State) (src : Source) (addr : Nat) : Access :=
  match regAt addr with
  | none => .unmapped
  | some (b, r) =>
    if src = .i3c ∧ b = .triad then .unmapped
    else
      let a := match b with
        | .mac n => portBlock s b r false n
        | .skov n => portBlock s b r true n
        | _ => .mapped b r
      if a = .unmapped then .unmapped
      else if ¬ domainOn s (addrDomain addr) then .off
      else if s.boot.inReset ∧ ¬ (b = .aon ∨ b = .i3c ∨ b = .ledger ∨ b = .ready) then .off
      else a

/-- The place under which an access error is ordered (R443). -/
def errorPlace (addr : Nat) : Nat × Nat := if 30 ≤ addrDomain addr then (0, 0) else (addrDomain addr, addrBlock addr)

/-- Record an access that R24 or R25 turns away. -/
def accessError (code : Nat) (src : Source) (addr : Nat) (s : State) : State :=
  raiseAt (errorPlace addr) code (addr + sourceField src) 0 s

/-- The engine of a source, when it is one. -/
def sourceEngine : Source → Option Nat
  | .triad => some eTriad
  | .timeEngine => some eTime
  | .tileCore t b => some (eTile t.val b.val)
  | .starter => some eStarter
  | _ => none

/-- A control register access for the counters (R510). -/
def accessEvent (src : Source) (addr : Nat) (s : State) : State :=
  perfEvent { code := 0x060, master := sourceMaster src, addr := some addr } s

/-- A read of control space by a source: the value and the state after it. -/
def ctlRead (src : Source) (addr : Nat) (s0 : State) : Nat × State :=
  let s := accessEvent src addr s0
  match accessOf s src addr with
  | .unmapped => (0, accessError Ev.ctrlUnmapped src addr s)
  | .off => (0, accessError Ev.ctrlDomainOff src addr s)
  | .staged b r => (storedBits s b r, s)
  | .mapped b r =>
    match latchedPair s b r with
    | some v =>
      if latchHigh b r then (mget 0 s.regs.latch (latchKey src b r), s)
      else (word64 false v, { s with regs := { s.regs with
        latch := mset 0 s.regs.latch (latchKey src b (r + 1)) (word64 true v) } })
    | none => (storedBits s b r + roBits s b r, { s with freeCtr := s.freeCtr + 1 })

end Sys2Proof.Machine
end

