-- ==== Sys2Proof/Machine/RegCheck.lean ====
section
/-!
DEFINITION. The range checks and refusals that the register maps state (R13, R16, R467): for a write whose alias has
acted, the event under which it is refused. A check applies only to fields that the write can change.
-/
namespace Sys2Proof.Machine

/-- A write as its checks see it: the RW and RWL bits after the alias, whether the RWL fields take it, and the WO bits
it starts. -/
structure RegWr where
  new : Nat := 0
  opened : Bool := false
  wo : Nat := 0
deriving DecidableEq, Repr

/-- The event where a condition for a refusal holds. -/
def refuseIf (c : Bool) (code : Nat) : Option Nat := if c then some code else none

/-- Whether a number is outside a range. -/
def outside (lo hi v : Nat) : Bool := decide (v < lo) || decide (hi < v)

/-! ## PD00 and PD01 -/

/-- Whether a buffer of a Press half is held (R532). -/
def pressHeld (s : State) (half : Nat) : Bool :=
  s.vat.held.any (fun p =>
    let i := hIdx p.1
    match hPool p.1 with
    | 0 => i / 753664 == half
    | 5 => false
    | 6 => false
    | 7 => false
    | k => i * bufSize k / 65536 / 128 == half)

/-- Whether PWRSEQ_DOMAIN_EN refuses a value (R495, R531, R532). -/
def domainsRefused (s : State) (v : Nat) : Bool :=
  let pipes := fieldOf v 7 4 != 0
  fieldOf v 3 0 != 0xF
    || (pipes && !(bitOf v 8 && bitOf v 9 && bitOf v 12))
    || (!bitOf v 10 && (pipes || pressHeld s 0)) || (!bitOf v 11 && (pipes || pressHeld s 1))

/-- The checks of PD00 and PD01 (R444, R457, R466, R494, R495, R532, R534). -/
def checkAon (s : State) (b : Block) (r : Nat) (w : RegWr) : Option Nat :=
  match b, r with
  | .i3c, 14 => refuseIf (fieldOf w.new 15 8 == 0) Ev.cfgRange
  | .starter, 2 => refuseIf (decide (999999999 < w.new)) Ev.cfgRange
  | .pwrseq, 0 => refuseIf (w.opened && domainsRefused s w.new) Ev.cfgRange
  | .sensor, 3 => refuseIf (outside 70 104 (fieldOf w.new 7 0) || (bitOf w.wo 8 && thermalAlarm s)) Ev.cfgRange
  | .triad, 1 => refuseIf (decide (86400 < fieldOf w.new 16 0) || fieldOf w.new 20 17 == 0) Ev.cfgRange
  | .triad, 6 => refuseIf ((List.range 3).any (fun c => bitOf w.wo c && !bitOf s.triad.retired c)) Ev.cfgRange
  | .ctlport, 9 => refuseIf (bitOf w.wo 0 && bitOf w.wo 2) Ev.cfgRange
  | _, _ => none

/-! ## PD02 -/

/-- The rate of a lane in Mb/s; 0 where no port or link holds it (R390, R322). -/
def laneMbps (s : State) (n : Nat) : Nat :=
  match laneGroup s n with
  | none => 0
  | some g =>
    let code := if g.link then 3 - skovField s (pipeEp s (n / 16)) g.lowest 10 10 else modeRate (laneMode s g.lowest)
    match code with
    | 0 => 53125
    | 1 => 106250
    | 2 => 212500
    | _ => 425000

/-- The checks of TIME (R426, R428). -/
def checkTime (s : State) (r : Nat) (w : RegWr) : Option Nat :=
  let v := w.new
  refuseIf (if r = 0 then
      fieldOf v 1 0 == 3 || fieldOf v 3 2 == 0 || outside 10 1000 (fieldOf v 13 4) || outside 1 1000 (fieldOf v 23 14)
        || fieldOf v 31 24 == 0
    else if r = 1 then decide (1000000000 < v)
    else if r = 2 then outside 1 500000 v
    else if r = 4 then outside 1 500000 (fieldOf v 19 1)
    else decide (16 ≤ r) && (decide (fieldOf v 25 10 < 64)
      || decide (200 * fieldOf v 25 10 < laneMbps s (fieldOf v 8 0)))) Ev.timeCfgRange

/-! ## PD03 -/

/-- The mode codes of a pipe that the shadow would hold with a map register replaced (R392). -/
def stagedModes (s : State) (r v : Nat) : List Nat :=
  let p := (r - 32) / 2
  (List.range 16).map (fun k =>
    if k / 8 = r % 2 then fieldOf v (4 * (k % 8) + 3) (4 * (k % 8)) else laneModeAt s (s.epoch.live + 1) (16 * p + k))

/-- Whether an arrangement of a pipe is refused (R392). -/
def modesRefused (ms : List Nat) : Bool :=
  let at_ := fun k => ms.getD k 0
  let isPort := fun k => decide (1 ≤ at_ k) && decide (at_ k ≤ 0xC)
  (List.range 16).any (fun k =>
    at_ k == 0xD || at_ k == 0xE
      || (isPort k && k % modeLanes (at_ k) != 0)
      || (at_ k != 0 && (List.range k).any (fun j => isPort j && decide (k < j + modeLanes (at_ j)))))

/-- Whether a segment of the scratch region holds a held buffer (R254). -/
def segmentHeld (s : State) (seg : Nat) : Bool :=
  s.vat.held.any (fun p =>
    let k := hPool p.1
    decide (1 ≤ k) && decide (k ≤ 4) && hIdx p.1 * bufSize k / 65536 == seg)

/-- Whether a VAT_SEG_MAP value moves a segment with a held buffer (R254). -/
def mapMovesHeld (s : State) (r v : Nat) : Bool :=
  (List.range 16).any (fun j =>
    1 + fieldOf v (2 * j + 1) (2 * j) != segPool s (16 * (r - 16) + j) && segmentHeld s (16 * (r - 16) + j))

/-- Whether a pool6_per_channel removes a held buffer of pool 6 or a held page of pool 5 (R256). -/
def pool6Removes (s : State) (p : Nat) : Bool :=
  s.vat.held.any (fun h => match hPool h.1 with
    | 6 => decide (p ≤ hIdx h.1 % 768)
    | 5 => decide (6258688 - 512 * p ≤ hIdx h.1 % 6291456)
    | _ => false)

/-- The floors of a pool with one of them replaced (R278). -/
def floorSum (s : State) (r v : Nat) : Nat :=
  ((List.range 4).map (fun k => if k = (r - 32) % 4 then v else floorOf s ((r - 32) / 4) k)).foldl (· + ·) 0

/-- The checks of VAT (R254, R256, R278). -/
def checkVat (s : State) (r : Nat) (w : RegWr) : Option Nat :=
  if r = 1 then
    if outside 4 768 w.new then some Ev.vatCfgRange else refuseIf (pool6Removes s w.new) Ev.vatCfgBusy
  else if r = 5 then refuseIf (decide (256 < fieldOf w.new 8 0)) Ev.vatCfgRange
  else if 16 ≤ r ∧ r ≤ 31 then refuseIf (mapMovesHeld s r w.new) Ev.vatCfgBusy
  else if 32 ≤ r ∧ r ≤ 63 then
    refuseIf ((r % 4 == 0 && decide (w.new < 16)) || decide (poolSize s ((r - 32) / 4) < floorSum s r w.new)) Ev.vatCfgRange
  else none

/-- Whether FABRIC_CONFIG refuses a value (R358). -/
def wiringRefused (v : Nat) : Bool :=
  let g := fieldOf v 7 3
  let m := fieldOf v 13 8
  match fieldOf v 2 1 with
  | 0 => g != 0 || m != 0
  | 1 => g != 0 || outside 1 32 m
  | 2 => g == 0 || outside 1 31 m
  | _ => true

/-- The other checks of PD03 (R202, R308, R343, R358, R392, R444, R491). -/
def checkXbar (s : State) (b : Block) (r : Nat) (w : RegWr) : Option Nat :=
  match b, r with
  | .xbar, r => refuseIf (w.opened && modesRefused (stagedModes s r w.new)) Ev.macCfgRange
  | .wheel, 0 => refuseIf (outside 500 20000 w.new) Ev.queueCfgRange
  | .scraper, 2 => refuseIf (w.new == 0) Ev.cfgRange
  | .fabric, 0 => refuseIf (w.opened && wiringRefused w.new) Ev.fabricCfgRange
  | .fabric, 4 => refuseIf (w.opened && (outside 10 1000 (fieldOf w.new 9 0) || decide (fieldOf w.new 13 10 < 3)))
      Ev.fabricCfgRange
  | .fabric, 5 => refuseIf (w.opened && decide (w.new < 16)) Ev.fabricCfgRange
  | .fabric, 6 => refuseIf (w.opened && decide (fieldOf w.new 31 24 ≠ 0)
      && outside s.boot.fw.skovMin s.boot.fw.skovMax (fieldOf w.new 31 24)) Ev.fabricCfgRange
  | .reseq, 0 => refuseIf (w.opened && outside 1 1000 w.new) Ev.fabricCfgRange
  | .frag, 0 => refuseIf (w.opened && outside 10 30000 w.new) Ev.fragCfgRange
  | .epoch, 1 => refuseIf (outside 1 1000 w.new) Ev.cfgRange
  | .epoch, 2 => refuseIf (decide (1 < ((List.range 4).filter (bitOf w.wo)).length)) Ev.cfgRange
  | .epoch, 4 => refuseIf (decide (999999999 < w.new)) Ev.cfgRange
  | _, _ => none

/-! ## Pipes, routes, queues and counters -/

/-- The checks of a pipe's blocks (R158, R303, R316). -/
def checkPipe (b : Block) (r : Nat) (w : RegWr) : Option Nat :=
  if ¬ w.opened then none
  else match b with
    | .pipe _ => refuseIf (decide (1 ≤ r) && decide (r ≤ 4)
        && [0, 8, 16, 24].any (fun i => decide (60 < fieldOf w.new (i + 5) i))) Ev.pipeCfgRange
    | .sched _ => refuseIf (w.new == 0x40) Ev.queueCfgRange
    | .gate _ => refuseIf (match r % 16 with
        | 0 => bitOf w.new 0 && outside 1 1024 (fieldOf w.new 11 1)
        | 1 => outside 1000 1000000000 w.new
        | 2 => decide (999999999 < w.new)
        | _ => false) Ev.queueCfgRange
    | _ => none

/-- Whether a route is held or queued in any generation (R240). -/
def routesHeld (s : State) : Bool :=
  s.routes.slices.any (fun p => !p.2.isEmpty) || !s.routes.queue0.isEmpty || !s.routes.queue1.isEmpty

/-- The checks of PD08, PD12 and PD13 (R224, R243, R295, R517, R525). -/
def checkTables (s : State) (b : Block) (r : Nat) (w : RegWr) : Option Nat :=
  let v := w.new
  match b with
  | .rmap false => refuseIf ((r == 0 && (decide (11 < fieldOf v 3 0) || decide (11 < fieldOf v 7 4))) || routesHeld s)
      Ev.rmapCfgLocked
  | .turner => refuseIf (w.opened && v != 0 && outside 10 1000000 v) Ev.turnerCfgRange
  | .pager => refuseIf (fieldOf v 7 0 == 0 || outside 1 16 (fieldOf v 12 8)) Ev.queueCfgRange
  | .qcache => refuseIf (v == 0) Ev.queueCfgRange
  | .perfctr =>
    refuseIf (if r < 4096 then
        (match r % 16 with
        | 0 => if bitOf v 11 then !resourceCode (fieldOf v 9 0) else !eventCode (fieldOf v 9 0)
        | 2 => decide (rwBits s .perfctr (r + 1) < v)
        | 3 => decide (v < rwBits s .perfctr (r - 1))
        | _ => false)
      else match r with
        | 4112 => fieldOf v 15 0 != 0 && outside 10 60000 (fieldOf v 15 0)
        | 4113 => decide (2097152 < v + rwBits s .perfctr 4114)
        | 4114 => decide (65536 < v) || decide (2097152 < v + rwBits s .perfctr 4113)
        | 4115 => v / 2 ^ 28 != 7
        | _ => false) Ev.cfgRange
  | _ => none

/-! ## Lanes, MACs and links -/

/-- The checks of MACn (R402). -/
def checkMac (s : State) (n r : Nat) (w : RegWr) : Option Nat :=
  let v := w.new
  refuseIf (if r = 3 then bitOf w.wo 0 && !fcEnabled s n
    else if ¬ w.opened then false
    else match r with
      | 0 => decide (fieldOf v 13 0 < 64) || (bitOf v 14 && bitOf v 15) || (bitOf v 16 && bitOf v 17)
          || (bitOf v 18 && !lpiMode (laneModeAt s (s.epoch.live + 1) n))
      | 1 => fieldOf v 15 0 == 0
      | 2 => outside 1 1024 (fieldOf v 10 0) || decide (fieldOf v 10 0 ≤ fieldOf v 26 16)
      | 5 => outside 1 1000 v
      | _ => false) Ev.macCfgRange

/-- The checks of LANEn (R368, R388). -/
def checkLane (r : Nat) (w : RegWr) : Option Nat :=
  let v := w.new
  refuseIf (match r with
    | 0 => w.opened && (outside 1 5 (fieldOf v 6 4) || outside 1 64 (fieldOf v 14 8) || outside 1 1000 (fieldOf v 24 15))
    | 1 => outside 100 10000 v
    | 4 => decide (0x3FFF < v)
    | 6 => w.opened && !coefOk v
    | 8 => decide (4 < fieldOf v 2 0) || fieldOf v 5 4 == 3
    | _ => false) Ev.laneCfgRange

/-- The checks of SKOVn (R322). -/
def checkSkov (n r : Nat) (w : RegWr) : Option Nat :=
  refuseIf (r == 0 && w.opened && bitOf w.new 0 && decide (16 < n % 16 + fieldOf w.new 3 1 + 1)) Ev.fabricCfgRange

/-- The event under which a write is refused; none where it is taken. -/
def regRefusal (s : State) (b : Block) (r : Nat) (w : RegWr) : Option Nat :=
  match b with
  | .i3c => checkAon s b r w | .starter => checkAon s b r w | .pwrseq => checkAon s b r w | .sensor => checkAon s b r w
  | .triad => checkAon s b r w | .ctlport => checkAon s b r w
  | .time => checkTime s r w
  | .vat => checkVat s r w
  | .xbar => checkXbar s b r w | .wheel => checkXbar s b r w | .scraper => checkXbar s b r w
  | .fabric => checkXbar s b r w | .reseq => checkXbar s b r w | .frag => checkXbar s b r w | .epoch => checkXbar s b r w
  | .pipe _ => checkPipe b r w | .sched _ => checkPipe b r w | .gate _ => checkPipe b r w
  | .rmap _ => checkTables s b r w | .turner => checkTables s b r w | .pager => checkTables s b r w
  | .qcache => checkTables s b r w | .perfctr => checkTables s b r w
  | .mac n => checkMac s n r w
  | .lane _ => checkLane r w
  | .skov n => checkSkov n r w
  | _ => none

end Sys2Proof.Machine
end

