-- ==== Sys2Proof/Machine/RegWrite.lean ====
section
/-!
DEFINITION. A write of control space (R12, R13, R29, R432, R467, R489): the alias, the lock, the refusal, the store, and
what the register's commands and fields do at once. The one command left to `Machine/Ctrl.lean` is go of STARTER_MOULD.
-/
namespace Sys2Proof.Machine

/-- What an alias makes of the stored bits (R467). -/
def applyAlias (al old v : Nat) : Nat :=
  if al = 0 then v
  else if al = 4 then old ||| v
  else if al = 8 then old &&& (0xFFFFFFFF ^^^ v)
  else old ^^^ v

/-- Whether the RWL fields of a block take a write (R12, R29, R137). -/
def rwlOpen (s : State) (b : Block) : Bool :=
  staged s && (match b with
    | .mac n => blockLive s (s.epoch.live + 1) false n
    | .skov n => blockLive s (s.epoch.live + 1) true n
    | _ => true)

/-! ## Commands (R12, R467) -/

/-- EPOCH_RESULT after a command of EPOCH_CMD (R491). -/
def epochResult (code epoch : Nat) (s : State) : State :=
  { s with epoch := { s.epoch with result := code, resultEpoch := epoch } }

/-- The commit time in EPOCH_AT_NS and EPOCH_AT_SEC, in units of 2⁻¹⁶ ns (R491). -/
def epochAt (s : State) : Nat :=
  (rwField s .epoch 5 31 0 + rwField s .epoch 6 31 0 * 2 ^ 32) * secUnits + rwField s .epoch 4 29 0 * 65536

/-- A command of EPOCH_CMD (R491). -/
def epochCommand (wo : Nat) (s : State) : State :=
  match wo with
  | 1 => let o := epochStageOp s; epochResult o.1 0 o.2
  | 2 => let o := epochCommitOp s; epochResult o.1 o.2.1 o.2.2
  | 4 => let o := epochCommitAtOp (epochAt s) s; epochResult o.1 o.2.1 o.2.2
  | 8 => let o := epochCancelOp s; epochResult o.1 0 o.2
  | _ => s

/-- go of VAT_FILL_CTL: the cell copy command starts; ignored while one runs (R270, R278). -/
def fillGo (s : State) : State :=
  match s.vat.fill with
  | some _ => s
  | none => { s with vat := { s.vat with
      fillRefused := false
      fill := some { cell := rwField s .vat 2 20 0, next := rwField s .vat 3 20 0, src := rwField s .vat 4 23 0,
                     length := rwField s .vat 5 8 0, toScratch := rwField s .vat 5 9 9 == 1,
                     owner := ownerOf s eTriad } } }

/-- Whether a cell copy command is refused: KC_OWNER must hold the cell, and for a length above 0 the one scratch
buffer that has the whole range (R105, R270). -/
def fillRefusedNow (s : State) (j : FillJob) : Bool :=
  let h := scratchBuffer s j.src
  !(inStorage s 0 j.cell && holdsBuffer s j.owner (handle 0 j.cell))
    || (j.length != 0 && (decide (bufSize (hPool h) < j.src % bufSize (hPool h) + j.length) || !holdsBuffer s j.owner h))

/-- A cell copy command completes (R270, R278). -/
def fillDone (s : State) : State :=
  match s.vat.fill with
  | none => s
  | some j =>
    let s1 := { s with vat := { s.vat with fill := none, fillRefused := fillRefusedNow s j } }
    if fillRefusedNow s j then s1
    else
      let p := s1.press
      let p1 := if j.toScratch then { p with scratch := memWrite p.scratch j.src (memRead p.cells (256 * j.cell) j.length) }
        else { p with cells := memWrite p.cells (256 * j.cell) (memRead p.scratch j.src j.length) }
      { s1 with press := { p1 with
          link := mset noLink p1.link j.cell j.next
          bad := if j.toScratch then p1.bad else p1.bad.filter (fun c => c != j.cell) } }

/-- load and clear of CTLPORT_KEY_LOAD (R466). -/
def keyCommand (wo : Nat) (s : State) : State :=
  let slot := b2n (bitOf wo 1)
  if bitOf wo 0 then
    let key := ((List.range 8).map (fun w => mget 0 s.ctl.staging w * 2 ^ (32 * w))).foldl (· + ·) 0
    { s with ctl := { s.ctl with keys := mset none s.ctl.keys slot (some key), staging := [] } }
  else if bitOf wo 2 then { s with ctl := { s.ctl with keys := mset none s.ctl.keys slot none } }
  else s

/-- A key word enters the staging; the clear alias starts nothing (R466, R467). -/
def stageKey (r al v : Nat) (s : State) : State :=
  if al = 8 then s
  else { s with ctl := { s.ctl with staging := mset 0 s.ctl.staging (r - 1) (applyAlias al (mget 0 s.ctl.staging (r - 1)) v) } }

/-- A capture of a FLOWCTR window: the counts that this core clock found (R519). -/
def flowCapture (k : Nat) (s : State) : State :=
  setPerf { s.perf with
    windows := mset none s.perf.windows k (some (mget (0, 0) s.perf.startFlows (rwField s .flowctr (8 * k) 20 0))) } s

/-- zero of FLOW_ZERO: both counts are what the updates of this core clock add to 0 (R519). -/
def flowZero (k : Nat) (s : State) : State :=
  let i := rwField s .flowctr (8 * k) 20 0
  let v := mget (0, 0) s.flows i
  let v0 := mget (0, 0) s.perf.startFlows i
  { s with
    flows := mset (0, 0) s.flows i ((v.1 + 2 ^ 64 - v0.1) % 2 ^ 64, (v.2 + 2 ^ 64 - v0.2) % 2 ^ 64)
    perf := { s.perf with startFlows := mset (0, 0) s.perf.startFlows i (0, 0) } }

/-- The capture of a reference channel is read (R429). -/
def ackCapture (x : Nat) (s : State) : State := setRef x { refOf s x with unread := false } s

/-- The head transmit record of a queue goes (R421). -/
def popRecord (p : Nat) (s : State) : State :=
  let q := mget {} s.time.tsq p
  setTime { s.time with tsq := mset {} s.time.tsq p { q with recs := q.recs.drop 1 } } s

/-! ## What a write does beside storing -/

/-- PD00 and PD01: a trip ends, channels return, keys load. While a mould is applied, go of STARTER_MOULD answers BUSY
(R439, R466, R492, R533). -/
def effectAon (b : Block) (r wo : Nat) (s : State) : State :=
  match b, r with
  | .starter, 1 => if bitOf wo 5 then { s with boot := { s.boot with mouldResult := rBusy } } else s
  | .sensor, 3 => if bitOf wo 8 then { s with power := { s.power with tripHold := false } } else s
  | .triad, 6 => returnChannels wo s
  | .ctlport, 9 => keyCommand wo s
  | _, _ => s

/-- PD02: a change of source, an output's lane, an acknowledge, a pop (R414, R421, R426, R429). -/
def effectTime (b : Block) (r wo old : Nat) (s : State) : State :=
  match b with
  | .time =>
    if r = 0 then
      if fieldOf old 1 0 = rwField s .time 0 1 0 then s else setTime { s.time with sourceChanged := true } s
    else if 16 ≤ r ∧ r ≤ 19 then followRclk (r - 16) s
    else s
  | .refin => if r % 16 = 7 ∧ bitOf wo 0 then ackCapture (r / 16) s else s
  | .tsq => if r % 64 = 6 ∧ bitOf wo 0 then popRecord (r / 64) s else s
  | _ => s

/-- PERFCTR's commands, and the start of the export (R514, R516, R524). -/
def effectPerf (r wo old : Nat) (s : State) : State :=
  if r < 4096 then if r % 16 = 9 ∧ bitOf wo 2 then clearOvf (r / 16) s else s
  else if r = 4096 then
    let s1 := freezeEdge (bitOf old 0) s
    if bitOf wo 1 ∧ ¬ s.perf.snapping then takeSnapshot s1 else s1
  else if r = 4112 ∧ fieldOf old 15 0 = 0 then setPerf { s.perf with exportFrom := s.now } s
  else s

/-- What a taken write does at once, besides the bits it has stored; `old` is what the register held. -/
def regEffect (b : Block) (r wo old : Nat) (s : State) : State :=
  match b with
  | .time => effectTime b r wo old s
  | .refin => effectTime b r wo old s
  | .tsq => effectTime b r wo old s
  | .vat => if r = 5 ∧ bitOf wo 10 then fillGo s else s
  | .scraper => if r = 3 then restorePipes wo (List.range 32) s else s
  | .epoch => if r = 2 then epochCommand wo s else s
  | .l2b _ => if r = 20 then l2FlushGo wo s else s
  | .perfctr => effectPerf r wo old s
  | .flowctr =>
    if r % 8 = 0 then flowCapture (r / 8) s else if r % 8 = 6 ∧ bitOf wo 0 then flowZero (r / 8) s else s
  | .lane n => if r = 8 then applyLaneTest n (rwBits s b r) s else if r = 4 then followEye n s else s
  | .mac n => if r = 3 ∧ bitOf wo 0 then macFcSend n (bitOf wo 1) s else s
  | _ => effectAon b r wo s

/-! ## The write -/

/-- Store what a write makes of a register; it ends the register's parity condition (R432, R469). -/
def regStore (b : Block) (r new : Nat) (rw opened : Bool) (s : State) : State :=
  let s1 := if rw then setRw b r new s else s
  clearParity b r (if opened then setRwl (s.epoch.live + 1) b r new s1 else s1)

/-- A write to a listed register of a block that answers: whether it is refused, and the state; `full` is false where
only its RWL fields stand (R29). -/
def regWrite (src : Source) (addr : Nat) (b : Block) (r v : Nat) (full : Bool) (s : State) : Bool × State :=
  let al := addrAlias addr
  let spec := specOf b r
  let opened := rwlOpen s b && spec.rwl != 0
  let mask := (if full then spec.rw else 0) + (if opened then spec.rwl else 0)
  let old := storedBits s b r
  let new := (old &&& (0xFFFFFFFF ^^^ mask)) ||| (applyAlias al old v &&& mask)
  let wo := if full ∧ al ≠ 8 then v &&& spec.wo else 0
  if mask = 0 ∧ spec.wo = 0 then (false, s)
  else match regRefusal s b r { new := new, opened := opened, wo := wo } with
    | some code => (true, raiseRefused b code addr src (new ||| wo) s)
    | none =>
      if b = .ctlport ∧ 1 ≤ r ∧ r ≤ 8 then (false, stageKey r al v s)
      else (false, regEffect b r wo old (regStore b r new full opened s))

/-- A write of control space by a source, but for go of STARTER_MOULD: whether the register refuses it, and the
state. -/
def ctlWriteCore (src : Source) (addr v : Nat) (s0 : State) : Bool × State :=
  let s := accessEvent src addr s0
  match accessOf s src addr with
  | .unmapped => (false, accessError Ev.ctrlUnmapped src addr s)
  | .off => (false, accessError Ev.ctrlDomainOff src addr s)
  | .staged b r => regWrite src addr b r v false s
  | .mapped b r => regWrite src addr b r v true s

end Sys2Proof.Machine
end

