-- ==== Sys2Proof/Machine/Settings.lean ====
section
/-!
DEFINITION. Applying settings (R475, R482): the records of a set, a mould in service (R492), and the write of control
space with every command, go of STARTER_MOULD among them.
-/
namespace Sys2Proof.Machine

/-! ## Table operations on bytes -/

/-- A TBL.WR, TBL.INS, TBL.DEL or TBL.PROG of image bytes: result code, value, state (R127, R462, R482). -/
def tblApply (op : TblOp) (h : Nat) (img : List Byte) (s : State) : Nat × Nat × State :=
  let t := hType h
  if op ≠ .prog ∧ img.length ≠ imageSize t then (rRange, 0, s)
  else match tblGate s op h with
    | some c => (c, 0, s)
    | none => match op with
      | .prog =>
        if img = [] then (rNone, 0, s) else tblProgram t (hInst h) (hIndex h) img.length (leNat img) s
      | .ins => ((keyedInsert t img s).1, 0, (keyedInsert t img s).2)
      | .del => ((keyedDelete t img s).1, 0, (keyedDelete t img s).2)
      | _ => ((tblWrite t (hInst h) (hIndex h) (leNat img) s).1, 0, (tblWrite t (hInst h) (hIndex h) (leNat img) s).2)

/-! ## Records (R475, R482) -/

/-- The operation of a TBL record's kind. -/
def recOp (kind : Nat) : Option TblOp :=
  if kind = 2 then some .wr else if kind = 3 then some .ins else if kind = 4 then some .prog else none

/-- The address and value pairs of a REG payload; `n` bounds their number. -/
def regPairs : Nat → List Byte → List (Nat × Nat)
  | 0, _ => []
  | n + 1, bs => if bs.length < 8 then [] else (leAt bs 0 4, leAt bs 4 4) :: regPairs n (bs.drop 8)

/-- The pairs of a record. -/
def pairsOf (r : SetRec) : List (Nat × Nat) := regPairs r.2.length r.2

/-- The Starter writes pairs; whether one of them is refused (R482). -/
def writePairs : List (Nat × Nat) → State → Bool × State
  | [], s => (false, s)
  | p :: ps, s =>
    let a := ctlWriteCore .starter p.1 p.2 s
    let b := writePairs ps a.2
    (a.1 || b.1, b.2)

/-- A record that its target refuses is counted (R482). -/
def countRefused (bad : Bool) (s : State) : State :=
  if bad then { s with boot := { s.boot with refused := s.boot.refused + 1 } } else s

/-- Apply a REG or KEY record (R482 step 2). -/
def applyReg (r : SetRec) (s : State) : State :=
  if r.1 = 1 then
    let w := writePairs (pairsOf r) s
    countRefused (w.1 || r.2.length % 8 != 0) w.2
  else if r.1 = 5 then
    if r.2.length ≠ 36 then countRefused true s
    else { s with ctl := { s.ctl with keys := mset none s.ctl.keys (leAt r.2 0 1 % 2) (some (leAt r.2 4 32)) } }
  else s

/-- The entries of a PLAN payload: provisioned ID and unit; `n` bounds their number. -/
def planEntries : Nat → List Byte → List (Nat × Nat)
  | 0, _ => []
  | n + 1, bs => if bs.length < 12 then [] else (leAt bs 4 6, leAt bs 0 2) :: planEntries n (bs.drop 12)

/-- Keep a PLAN or IMAGE record (R482 step 3). -/
def keepRec (r : SetRec) (s : State) : State :=
  if r.1 = 6 then
    let es := planEntries r.2.length r.2
    countRefused (r.2.length % 12 != 0 || es.any (fun e => decide (1024 ≤ e.2)))
      { s with roll := { s.roll with plan := s.roll.plan ++ es.filter (fun e => e.2 < 1024) } }
  else if r.1 = 7 then { s with boot := { s.boot with images := s.boot.images ++ [r.2] } }
  else s

/-- T0 firmware writes a TBL record (R482 step 4). -/
def applyTbl (r : SetRec) (s : State) : State :=
  match recOp r.1 with
  | none => s
  | some op =>
    if r.2.length < 8 then countRefused true s
    else
      let o := tblApply op (leAt r.2 0 8) (r.2.drop 8) s
      countRefused (o.1 != rOk && o.1 != rPending) o.2.2

/-- Do a step for every record of a list. -/
def eachRec (f : SetRec → State → State) : List SetRec → State → State
  | [], s => s
  | r :: rs, s => eachRec f rs (f r s)

/-- Apply the records of a base and a mould (R482 steps 2 to 4). -/
def applyRecs (base mould : List SetRec) (s : State) : State :=
  eachRec applyTbl (base ++ mould) (eachRec keepRec base (eachRec applyReg (base ++ mould) s))

/-! ## A mould in service (R492) -/

/-- The records of mould m of a set. -/
def mouldRecs (x : Option SetInfo) (m : Nat) : List SetRec :=
  match x with
  | some i => mget [] i.moulds m
  | none => []

/-- The register a pair writes, by its number. -/
def pairReg (p : Nat × Nat) : Nat := p.1 / 16

/-- Whether an address carries an alias of R23. -/
def aliasOk (a : Nat) : Bool := addrAlias a % 4 == 0

/-- The value that base pairs leave in a register: from its Reset value, each alias in turn (R492 step 3). -/
def baseValue (spec : RegSpec) (pairs : List (Nat × Nat)) : Nat :=
  (pairs.foldl (fun v p => applyAlias (addrAlias p.1) v p.2) spec.reset) &&& (spec.rw ||| spec.rwl)

/-- The writes that give the registers of the mould in force, which the new mould does not write, the base's value. -/
def revertPairs (base old new : List SetRec) : List (Nat × Nat) :=
  let oldRegs := ((old.filter (fun r => r.1 == 1)).flatMap pairsOf).map pairReg
  let newRegs := ((new.filter (fun r => r.1 == 1)).flatMap pairsOf).map pairReg
  let basePairs := (base.filter (fun r => r.1 == 1)).flatMap pairsOf
  (oldRegs.eraseDups.filter (fun k => !newRegs.contains k)).filterMap (fun k =>
    match regAt (k * 16) with
    | some (b, r) => some (k * 16, baseValue (specOf b r) (basePairs.filter (fun p => pairReg p == k && aliasOk p.1)))
    | none => none)

/-- What names the entry a TBL record writes: its handle, and the key of a keyed image (R207, R234). -/
def recEntry (r : SetRec) : Nat × List Byte :=
  let h := leAt r.2 0 8
  let img := r.2.drop 8
  if r.1 ≠ 3 then (h, [])
  else if hType h = 1 then (h, leBytes 8 (l2ImageKey (leNat img))) else (h, img.take 3 ++ (img.drop 16).take 16)

/-- Give the entry of a TBL record of the mould in force the base's contents: the base's record, the deletion of a keyed
entry, an empty program slot, or the reset slot. -/
def revertEntry (base : List SetRec) (r : SetRec) (s : State) : State :=
  let h := leAt r.2 0 8
  match (base.filter (fun b => (recOp b.1).isSome && decide (8 ≤ b.2.length) && recEntry b == recEntry r)).getLast? with
  | some b => applyTbl b s
  | none =>
    let o := if r.1 = 3 then tblApply .del h (r.2.drop 8) s
      else if r.1 = 4 then
        (match tblGate s .prog h with
        | some c => (c, 0, s)
        | none => (rOk, 0, storePipes (hType h) (hInst h) (hIndex h) 0 s))
      else tblApply .wr h (List.replicate (imageSize (hType h)) 0) s
    countRefused (o.1 != rOk && o.1 != rPending) o.2.2

/-- The TBL records of the mould in force that the new mould does not write, each entry once. -/
def revertRecs (old new : List SetRec) : List SetRec :=
  let tbl := fun (rs : List SetRec) => rs.filter (fun r => (recOp r.1).isSome && decide (8 ≤ r.2.length))
  (tbl old).filter (fun r => !(tbl new).any (fun n => recEntry n == recEntry r))

/-- Steps 3 to 5 of R492, once the stage is open. -/
def mouldStage (commitAt : Bool) (s : State) : State :=
  let x := setInUse s
  let base := (x.map (fun i => i.base)).getD []
  let old := mouldRecs x s.boot.mould
  let new := mouldRecs x s.boot.chosen
  let w := writePairs (revertPairs base old new) s
  let s1 := eachRec (revertEntry base) (revertRecs old new) (countRefused w.1 w.2)
  let s2 := eachRec applyTbl new (eachRec applyReg new s1)
  let due := (rwField s2 .starter 3 31 0 + rwField s2 .starter 4 31 0 * 2 ^ 32) * secUnits + rwField s2 .starter 2 29 0 * 65536
  let o := if commitAt then epochCommitAtOp due s2 else epochCommitOp s2
  if o.1 = rPending then { o.2.2 with boot := { o.2.2.boot with committing := some false } }
  else { o.2.2 with boot := { o.2.2.boot with
    phase := .running
    mouldResult := o.1 } }

/-- go of STARTER_MOULD (R492). -/
def mouldGo (s : State) : State :=
  let m := rwField s .starter 1 3 0
  let at_ := rwField s .starter 1 4 4 == 1
  let answer := fun (c : Nat) (s : State) => { s with boot := { s.boot with mouldResult := c } }
  if s.boot.phase ≠ .running ∨ s.epoch.shadowOpen ∨ s.epoch.stagePending ∨ s.epoch.commit ≠ .none then answer rBusy s
  else if m ≠ 0 ∧ mouldRecs (setInUse s) m = [] then answer rNotFound (raise .starter Ev.mouldInvalid m s)
  else
    let s1 := { s with boot := { s.boot with
      phase := .mould
      chosen := m
      refused := 0 } }
    let o := epochStageOp s1
    if o.1 = rOk then mouldStage at_ o.2
    else { o.2 with boot := { o.2.boot with mouldWait := some at_ } }

/-- STAGE_OPEN: a pending stage opens, and a mould application that waited for it goes on (R60, R136, R492). -/
def execStageOpen (s : State) : Host.Outcome State Fault Refusal :=
  .next (if s.epoch.stagePending ∧ stageReady s then
      let s1 := raise .epoch Ev.epochStageOpen s.epoch.live (openStage s)
      match s1.boot.mouldWait with
      | none => s1
      | some at_ => mouldStage at_ { s1 with boot := { s1.boot with mouldWait := none } }
    else s)

/-! ## The write of control space -/

/-- Whether a write starts go of STARTER_MOULD: the register answers and the write is not by the clear alias. -/
def startsMould (s : State) (src : Source) (addr v : Nat) : Bool :=
  accessOf s src addr == .mapped .starter 1 && addrAlias addr != 8 && bitOf v 5

/-- A write of control space by a source. -/
def ctlWrite (src : Source) (addr v : Nat) (s : State) : State :=
  if startsMould s src addr v then mouldGo (ctlWriteCore src addr (v - 32) s).2
  else (ctlWriteCore src addr v s).2

end Sys2Proof.Machine
end

