-- ==== Sys2Proof/Machine/Ctrl.lean ====
section
/-!
DEFINITION. Who may reach control space (R78, R79, R449), LDC and STC (R120), interrupts and WAIT (R87, R119, R141),
TIME.AT's writes (R427), and the commands that are a write of one register by a source.
-/
namespace Sys2Proof.Machine

/-! ## Rights (R78, R79, R449) -/

/-- Whether a tier may read, and may write, a block of a domain. -/
def tierRights (tier d b : Nat) : Bool × Bool :=
  if tier = 0 then (true, true)
  else
    let t1 := tier == 1
    if d = 0 then (t1 || b == 6 || b == 7, false)
    else if d = 2 then (true, t1)
    else if 3 ≤ d ∧ d ≤ 12 then (t1, t1)
    else if d = 13 then if b = 0 ∨ b = 2 then (t1, t1) else (b == 1 || b == 3 || b == 4, t1 && (b == 1 || b == 3 || b == 4))
    else if 14 ≤ d ∧ d ≤ 21 then (t1, false)
    else if 22 ≤ d ∧ d ≤ 29 then
      if b ≤ 2 then (t1, false) else if 64 ≤ b ∧ b < 256 then (true, t1) else (false, false)
    else (false, false)

/-- Whether a source may read (false) or write (true) a control address. -/
def sourceMay (s : State) (src : Source) (write : Bool) (addr : Nat) : Bool :=
  let d := addrDomain addr
  let b := addrBlock addr
  let tier := fun (t : Nat) => if write then (tierRights t d b).2 else (tierRights t d b).1
  match src with
  | .triad => tier (tierOf s eTriad)
  | .starter => true
  | .i3c => true
  | .inband _ => tier 1
  | .timeEngine => d == 2 || (decide (22 ≤ d) && decide (d ≤ 29) && b == 0)
  | .tileCore t _ => d == 22 + t.val || (d == 0 && b == 6)

/-- A write by a source that may perform it; otherwise nothing is written. -/
def sourceWrite (src : Source) (addr v : Nat) (s : State) : State :=
  if sourceMay s src true addr then ctlWrite src addr v s else s

/-! ## LDC and STC (R80, R120) -/

/-- The source that an engine is. -/
def engineSource (e : EngineId) : Source :=
  if e.val = eTriad then .triad
  else if e.val = eTime then .timeEngine
  else if e.val = eStarter then .starter
  else .tileCore (Fin.ofNat 8 ((e.val - 2) / 2)) (Fin.ofNat 2 (e.val % 2))

/-- ka plus the sign-extended offset, not reduced. -/
def ctrlSum (s : State) (e : EngineId) (ka : KReg) (off : BitVec 16) : Int := ((kget s e ka).toNat : Int) + off.toInt

/-- LDC or STC of a control address that its checks pass: the vote, then the access. `word` is the instruction word: STC
in T2 traps with it (R72). -/
def runCtrl (e : EngineId) (ka : KReg) (off : BitVec 16) (word : BitVec 32) (vote : Vote) (write : Bool)
    (access : Nat → State → State) (s : State) : State :=
  runInstr e (fun s =>
    let sum := ctrlSum s e ka off
    let a := twos 32 sum
    if write ∧ tierOf s e = 2 then trapHere e causeTier (word.setWidth 64) s
    else if sum < 0 ∨ 4294967296 ≤ sum then trapHere e causeCtrl (BitVec.ofNat 64 a) s
    else if a % 4 ≠ 0 then trapHere e causeDataAlign (BitVec.ofNat 64 a) s
    else if ¬ sourceMay s (engineSource e) write a then trapHere e causeCtrl (BitVec.ofNat 64 a) s
    else
      let v := voteOutput e vote 0 a s
      if ¬ v.1 then v.2
      else access a (perfEvent { code := 0x053, master := engineMaster e, tier := some (tierOf s e), addr := some a } v.2)) s

/-- LDC kd, off(ka) (R120). -/
def execLdc (e : EngineId) (kd ka : KReg) (off : BitVec 16) (vote : Vote) (s : State) : Host.Outcome State Fault Refusal :=
  .next (runCtrl e ka off (encImm 0x21 kd ka off) vote false (fun a s =>
    let r := ctlRead (engineSource e) a s
    advance e (kset e kd (BitVec.ofNat 64 r.1) r.2)) s)

/-- STC kd, off(ka) (R120). -/
def execStc (e : EngineId) (kd ka : KReg) (off : BitVec 16) (vote : Vote) (s : State) : Host.Outcome State Fault Refusal :=
  .next (runCtrl e ka off (encImm 0x22 kd ka off) vote true (fun a s =>
    advance e (ctlWrite (engineSource e) a ((kget s e kd).toNat % 2 ^ 32) s)) s)

/-! ## Interrupts and WAIT (R87, R119, R141) -/

/-- The sources of a word, lowest first. -/
def sourcesOf (w : Nat) : List Nat := (List.range 16).filter (bitOf w)

/-- WAIT: T0 only; it completes where an enabled source is pending, and otherwise stops fetching (R119). -/
def execWait (e : EngineId) (s : State) : Host.Outcome State Fault Refusal :=
  .next (runInstr e (fun s =>
    if tierOf s e ≠ 0 then trapHere e causeTier ((encSys 4 0 0 0).setWidth 64) s
    else
      let s1 := advance e { s with freeCtr := s.freeCtr + 1 }
      if intEnabled s e = 0 then setEngine e { engine s1 e with run := .waiting } s1 else s1) s)

/-- WAIT_END: an enabled source is pending while WAIT stops fetching and int_enable is 0 (R119). -/
def execWaitEnd (e : EngineId) (s : State) : Host.Outcome State Fault Refusal :=
  let x := engine s e
  .next (if x.run = .waiting ∧ ¬ bitOf x.status.toNat 4 then
      let s1 := { s with freeCtr := s.freeCtr + 1 }
      if intEnabled s e = 0 then s1 else setEngine e { x with run := .running } s1
    else s)

/-- INTERRUPT_TAKEN: a pending enabled source between instructions, with int_enable 1; it ends WAIT. Which source
KC_TVAL names where several are pending is a free value (R83, R84, R87). -/
def execInterruptTaken (e : EngineId) (s : State) : Host.Outcome State Fault Refusal :=
  let x := engine s e
  .next (if (x.run = .waiting ∨ canRun s e) ∧ bitOf x.status.toNat 4 ∧ ¬ (e.val = eTriad ∧ triadStalled s) then
      let srcs := sourcesOf (intEnabled s e)
      let s1 := { s with freeCtr := s.freeCtr + 1 }
      match srcs with
      | [] => s1
      | _ =>
        let k := freeBelow srcs.length s1
        takeTrap e causeInterrupt (BitVec.ofNat 64 (srcs.getD k.1 0)) x.pc (setEngine e { x with run := .running } k.2)
    else s)

/-! ## TIME.AT (R427) -/

/-- The time-engine clock in which an action falls due. -/
def actionClock (a : TimedAction) : Nat := (a.due + 65535) / 65536

/-- SCHEDULED_ACTION: a due action's write is issued, after those due in an earlier clock and those of a lower handle
in the same clock (R134, R427). -/
def execScheduledAction (handle : Fin 64) (s : State) : Host.Outcome State Fault Refusal :=
  .next (match s.time.actions.find? (fun p => p.1 == handle.val) with
    | none => s
    | some p =>
      let first := s.time.actions.all (fun q => decide (actionClock p.2 < actionClock q.2)
        || (actionClock p.2 == actionClock q.2 && decide (p.1 ≤ q.1)))
      if p.2.due ≤ s.time.count ∧ first ∧ domainOn s 2 then
        ctlWrite .timeEngine p.2.addr p.2.val (setTime { s.time with actions := mdel s.time.actions handle.val } s)
      else s)

/-! ## Writes that are commands of their own -/

/-- A write to a register of a block through the plain (0) or another alias. -/
def regCommand (src : Source) (b : Block) (r al v : Nat) (s : State) : Host.Outcome State Fault Refusal :=
  .next (sourceWrite src (regAddr b r + al) v s)

/-- REGISTER_WRITE: a write through an alias (R467). -/
def execRegisterWrite (src : Source) (addr val : BitVec 32) (s : State) : Host.Outcome State Fault Refusal :=
  .next (sourceWrite src addr.toNat val.toNat s)

/-- LANE_TEST_WRITE (R386). -/
def execLaneTestWrite (lane : LaneId) (val : BitVec 32) (src : Source) (s : State) : Host.Outcome State Fault Refusal :=
  regCommand src (.lane lane.val) 8 0 val.toNat s

/-- REF_CAP_ACK: ack (R429). -/
def execRefCapAck (ch : Fin 3) (src : Source) (s : State) : Host.Outcome State Fault Refusal :=
  regCommand src .refin (16 * ch.val + 7) 0 1 s

/-- TSQ_POP: pop (R421). -/
def execTsqPop (pipe : PipeId) (src : Source) (s : State) : Host.Outcome State Fault Refusal :=
  regCommand src .tsq (64 * pipe.val + 6) 0 1 s

/-- L2_FLUSH: a write of the flush register (R214). -/
def execL2Flush (word : BitVec 32) (src : Source) (s : State) : Host.Outcome State Fault Refusal :=
  regCommand src (.l2b 0) 20 0 word.toNat s

/-- TRIAD_RETURN (R439, R444). -/
def execTriadReturn (val : BitVec 32) (src : Source) (s : State) : Host.Outcome State Fault Refusal :=
  regCommand src .triad 6 0 val.toNat s

/-- SCRAPER_PIPE_RESTORE (R436). -/
def execScraperPipeRestore (val : BitVec 32) (src : Source) (s : State) : Host.Outcome State Fault Refusal :=
  regCommand src .scraper 3 0 val.toNat s

/-- KEY_LOAD: load with a slot (R466). -/
def execKeyLoad (slot : Fin 2) (src : Source) (s : State) : Host.Outcome State Fault Refusal :=
  regCommand src .ctlport 9 0 (1 + 2 * slot.val) s

/-- KEY_CLEAR: clear with a slot (R466). -/
def execKeyClear (slot : Fin 2) (src : Source) (s : State) : Host.Outcome State Fault Refusal :=
  regCommand src .ctlport 9 0 (4 + 2 * slot.val) s

/-- EPOCH_CMD.stage (R491). -/
def execEpochCmdStage (src : Source) (s : State) : Host.Outcome State Fault Refusal := regCommand src .epoch 2 0 1 s

/-- EPOCH_CMD.commit (R491). -/
def execEpochCmdCommit (src : Source) (s : State) : Host.Outcome State Fault Refusal := regCommand src .epoch 2 0 2 s

/-- EPOCH_CMD.commit_at (R491). -/
def execEpochCmdCommitAt (src : Source) (s : State) : Host.Outcome State Fault Refusal := regCommand src .epoch 2 0 4 s

/-- EPOCH_CMD.cancel (R491). -/
def execEpochCmdCancel (src : Source) (s : State) : Host.Outcome State Fault Refusal := regCommand src .epoch 2 0 8 s

/-- VAT_FILL_GO: go through the set alias (R270, R278). -/
def execVatFillGo (src : Source) (s : State) : Host.Outcome State Fault Refusal := regCommand src .vat 5 4 0x400 s

/-- VAT_FILL_DONE: the cell copy command completes (R278). -/
def execVatFillDone (s : State) : Host.Outcome State Fault Refusal := .next (fillDone s)

/-- VAT_SEG_MAP_WRITE (R254). -/
def execVatSegMapWrite (r : Fin 16) (val : BitVec 32) (src : Source) (s : State) : Host.Outcome State Fault Refusal :=
  regCommand src .vat (16 + r.val) 0 val.toNat s

/-- VAT_POOL6_CFG_WRITE (R256). -/
def execVatPool6CfgWrite (val : BitVec 32) (src : Source) (s : State) : Host.Outcome State Fault Refusal :=
  regCommand src .vat 1 0 val.toNat s

/-- MAC_FC_TX_SEND: send, with resume or without (R400). -/
def execMacFcTxSend (port : LaneId) (resume : Bool) (src : Source) (s : State) : Host.Outcome State Fault Refusal :=
  regCommand src (.mac port.val) 3 0 (1 + 2 * b2n resume) s

/-- FREEZE_WRITE: the freeze field (R516). -/
def execFreezeWrite (freeze : Bool) (src : Source) (s : State) : Host.Outcome State Fault Refusal :=
  regCommand src .perfctr 4096 0 (b2n freeze) s

/-- SNAP_WRITE: snap through the set alias (R516). -/
def execSnapWrite (src : Source) (s : State) : Host.Outcome State Fault Refusal := regCommand src .perfctr 4096 4 2 s

/-- OVF_CLEAR (R514). -/
def execOvfClear (n : Fin 256) (src : Source) (s : State) : Host.Outcome State Fault Refusal :=
  regCommand src .perfctr (16 * n.val + 9) 0 4 s

/-- FLOW_CAPTURE: a write of FLOW_SELr (R519). -/
def execFlowCapture (r : Fin 4) (index : BitVec 32) (src : Source) (s : State) : Host.Outcome State Fault Refusal :=
  regCommand src .flowctr (8 * r.val) 0 index.toNat s

/-- FLOW_ZERO (R519). -/
def execFlowZero (r : Fin 4) (src : Source) (s : State) : Host.Outcome State Fault Refusal :=
  regCommand src .flowctr (8 * r.val + 6) 0 1 s

/-- STARTER_MOULD_GO: go through the set alias (R492). -/
def execStarterMouldGo (src : Source) (s : State) : Host.Outcome State Fault Refusal := regCommand src .starter 1 4 0x20 s

/-- TRIP_RELEASE: trip_release through the set alias (R533). -/
def execTripRelease (src : Source) (s : State) : Host.Outcome State Fault Refusal := regCommand src .sensor 3 4 0x100 s

/-! ## Cave channels (R277) -/

/-- CAVE_CHANNEL_FAIL (R277). -/
def execCaveChannelFail (c : Fin 8) (s : State) : Host.Outcome State Fault Refusal := .next (caveFail c.val 0 s)

/-- CAVE_CHANNEL_READY: a channel whose domain is on has trained (R277). -/
def execCaveChannelReady (c : Fin 8) (s : State) : Host.Outcome State Fault Refusal :=
  .next (if domainOn s (14 + c.val) ∧ ¬ (chan s c.val).ready then
      setChan c.val { chan s c.val with ready := true, failed := false } s
    else s)

end Sys2Proof.Machine
end

