-- ==== Sys2Proof/Machine/Boot.lean ====
section
/-!
DEFINITION. Reset, the boot and the boot commands (R458, R470 to R486, R528, R529), and settings writes (R477).
-/
namespace Sys2Proof.Machine

/-- The state with the Starter's part replaced. -/
def setBoot (x : BootSt) (s : State) : State := { s with boot := x }

/-! ## Reset (R442, R452, R458) -/

/-- Everything but the I3C target's bus state, the ledger and the memory outside goes to reset; what waits, what has
left the unit and the model's counters stay. -/
def resetUnit (s : State) : State :=
  { State.reset with
    pending := s.pending
    freeCtr := s.freeCtr
    now := s.now
    ledger := s.ledger
    out := s.out
    i3c := { s.i3c with errors := 0 }
    flash := s.flash
    roll := { lastIncarnation := s.roll.lastIncarnation }
    boot := { vaon := s.boot.vaon, pgood := s.boot.pgood } }

/-- RST_N_ASSERT: RST_N is low for 1 µs or longer (R458). -/
def execRstNAssert (s : State) : Host.Outcome State Fault Refusal :=
  .next (if s.boot.vaon ∧ ¬ s.boot.inReset then resetUnit s else s)

/-- PGOOD_IN_FALL: as RST_N, and the dynamic address is cleared (R452, R458). -/
def execPgoodInFall (s : State) : Host.Outcome State Fault Refusal :=
  .next (if ¬ s.boot.vaon then s
    else
      let s1 := if s.boot.inReset then s else resetUnit s
      setI3cPgood s1)
where
  /-- PGOOD_IN is low. -/
  setI3cPgood (s : State) : State :=
    { s with
      i3c := { s.i3c with addr := none }
      boot := { s.boot with pgood := false } }

/-- VAON_UP: PD00 runs and holds reset (R470, R528). -/
def execVaonUp (s : State) : Host.Outcome State Fault Refusal :=
  .next (if s.boot.vaon then s
    else { State.reset with
      pending := s.pending
      freeCtr := s.freeCtr
      out := s.out
      flash := s.flash })

/-- VAON_DOWN: all state is lost but the memory outside (R442, R529, R540). -/
def execVaonDown (s : State) : Host.Outcome State Fault Refusal :=
  .next (if ¬ s.boot.vaon then s
    else { State.reset with
      pending := s.pending
      freeCtr := s.freeCtr
      now := s.now
      out := s.out
      flash := s.flash
      power := { on := 0 }
      boot := { vaon := false } })

/-! ## Choosing a slot, a set and a mould (R476, R479, R480) -/

/-- The mould of a boot from a set, and whether the one selected is absent (R479). -/
def chooseMould (s : State) (x : Option SetInfo) : Nat × Bool :=
  match x with
  | none => (0, false)
  | some i =>
    let m := s.boot.selMould.getD (if s.boot.mode = 0 then i.bootDefault else s.boot.mode)
    if m = 0 then (0, false) else if mget [] i.moulds m = [] then (0, true) else (m, false)

/-- The mould that was selected. -/
def selectedMould (s : State) (x : Option SetInfo) : Nat :=
  s.boot.selMould.getD (if s.boot.mode = 0 then (x.map (fun i => i.bootDefault)).getD 0 else s.boot.mode)

/-- The domains that the records of a base and a mould enable: PWRSEQ_DOMAIN_EN as its writes leave it (R471). -/
def enabledDomains (s : State) (pairs : List (Nat × Nat)) : Nat :=
  pairs.foldl (fun v p =>
    if regAt (p.1 / 16 * 16) = some (.pwrseq, 0) ∧ aliasOk p.1 then
      let w := applyAlias (addrAlias p.1) v p.2 % 2 ^ 30
      if domainsRefused s w then v else w
    else v) 0x3FFFFFFF

/-- The REG pairs of records. -/
def regRecPairs (rs : List SetRec) : List (Nat × Nat) := (rs.filter (fun r => r.1 == 1)).flatMap pairsOf

/-- The set that a slot's boot uses; the factory image reads no settings (R473, R480). -/
def slotSet (s : State) (slot : Nat) (d : SlotDir) : Option (Nat × SetInfo) :=
  if slot = 2 then none else halfOfFormat s d.settings

/-- The Starter takes RECOVERY (R480, R484). -/
def recovery (s : State) : State :=
  bootResult 3 (setBoot { s.boot with
    phase := .recovery
    heldAt := none
    slot := 3
    mould := 0 } s)

/-- The domains to power for the set and mould chosen. -/
def chooseDomains (s : State) : State :=
  let x := setInUse s
  let m := (chooseMould s x).1
  let base := (x.map (fun i => i.base)).getD []
  { s with power := { s.power with wanted := enabledDomains s (regRecPairs (base ++ mouldRecs x m)) } }

/-- Try the slots of a list: the first with a directory, and with a set of its format unless it is the factory's, is
loaded; with none left, RECOVERY (R480). -/
def trySlots : List Nat → State → State
  | [], s => recovery s
  | n :: ns, s =>
    match slotDir s n with
    | none => trySlots ns s
    | some d =>
      match slotSet s n d with
      | some (h, _) => chooseDomains (setBoot { s.boot with
          phase := .loading
          trying := some n
          toTry := ns
          half := h
          format := d.settings } s)
      | none =>
        if n = 2 then chooseDomains (setBoot { s.boot with
          phase := .loading
          trying := some n
          toTry := ns
          half := 0
          format := 0 } s)
        else trySlots ns s

/-- The Starter's image bytes: the extension's, in its SRAM (R480, R481). -/
def extensionBytes (s : State) : List Byte := flashRead s 0 0x100000

/-- The ROM from its discovery of the memory on (R480, R481). -/
def romRuns (s : State) : State :=
  if ¬ s.flash.present ∨ s.flash.sizeMib < 64 then recovery s
  else if ¬ extensionOk s then
    recovery (raise .starter Ev.imageRejected (4 + (imgHdr (extensionBytes s)).tier % 4 * 2 ^ 4
      + (freeDraw s).1.toNat % 2 ^ 16 * 2 ^ 6) (setBoot { s.boot with romOnly := true } (freeDraw s).2))
  else
    trySlots (match s.boot.selSlot with
      | some n => [n]
      | none => [0, 1, 2]) (loadEngine eStarter 3 (extensionBytes s) s)

/-! ## Boot commands (R483, R484) -/

/-- Nothing of the settings has been applied yet. -/
def beforeApply (s : State) : Bool :=
  s.boot.phase == .rom || s.boot.phase == .held || s.boot.phase == .loading || s.boot.phase == .recovery

/-- TRIAD_RESTART: the image of the running slot starts again in every channel that is not retired, which ends an update's install
before its hold has ended (R483, R504). -/
def triadRestart (s : State) : State :=
  let s1 := if s.triad.mode = .halted then s else triadHalt 5 s
  let early := s.upd.phase = .prepared ∨ s.upd.phase = .shadow ∨ s.upd.phase = .handover ∨ s.upd.phase = .handback
  let s2 := if early then
      invalidateCurrent { s1 with upd := { s1.upd with phase := .idle, chan := none, imported := false, op := none } }
    else s1
  let t : TriadSt := { s2.triad with
    mode := if s2.triad.retired = 0 then .triplex else .duplex
    inVote := 7 - s2.triad.retired
    resyncing := none
    sramPass := false
    headlessStopped := false }
  match slotDir s2 s2.boot.slot with
  | none => { s2 with triad := t }
  | some d => loadEngine eTriad 0 (slotImage s2 s2.boot.slot d 0) { s2 with triad := t }

/-- A boot command's effect: its outcome and the state after it (R483). -/
def bootCommand (code arg : Nat) (s : State) : Nat × State :=
  match code with
  | 0x01 =>
    if ¬ beforeApply s then (5, s)
    else (2, setBoot { s.boot with
      heldAt := some (s.boot.heldAt.getD s.boot.phase)
      phase := .held } s)
  | 0x02 => (match s.boot.heldAt with
    | none => (5, s)
    | some p => (4, setBoot { s.boot with heldAt := none, phase := p } s))
  | 0x03 =>
    if ¬ beforeApply s ∨ 15 < arg then (5, s)
    else
      let s1 := setBoot { s.boot with selMould := some arg } s
      (4, if s.boot.trying.isSome then chooseDomains s1 else s1)
  | 0x04 =>
    if ¬ beforeApply s ∨ s.boot.trying.isSome ∨ 2 < arg then (5, s)
    else (4, setBoot { s.boot with selSlot := some arg } s)
  | 0x05 => if s.boot.committed then (4, triadRestart s) else (5, s)
  | 0x06 => (4, resetUnit s)
  | _ => (5, s)

/-- Whether the Starter takes boot commands: it runs, and has left reset. -/
def starterServes (s : State) : Bool := s.boot.vaon && !s.boot.inReset && !s.boot.halted

/-- The Starter takes the command in I3C_BOOT_CMD: it clears the register and writes the result; CONTINUE from the
ROM resumes the sequence (R480, R481, R483). -/
def takeBootCommand (s : State) : State :=
  let v := rwBits s .i3c 2
  if ¬ starterServes s ∨ v = 0 then s
  else
    let s1 := setRw .i3c 2 0 s
    let code := v % 256
    let r := if 65536 ≤ v ∨ (s.boot.romOnly ∧ code ≠ 6) then (5, s1) else bootCommand code (v / 256 % 256) s1
    if code = 6 ∧ r.1 = 4 then r.2
    else
      let s2 := bootResult r.1 r.2
      if code = 2 ∧ r.1 = 4 ∧ s2.boot.phase = .rom then romRuns s2 else s2

/-- A boot command's row: the command in I3C_BOOT_CMD is taken where it has this code. -/
def bootRow (code : Nat) (s : State) : Host.Outcome State Fault Refusal :=
  .next (if rwBits s .i3c 2 % 256 = code then takeBootCommand s else s)

/-- HOLD (R483). -/
def execBootHold (s : State) : Host.Outcome State Fault Refusal := bootRow 0x01 s

/-- CONTINUE (R483). -/
def execBootContinue (s : State) : Host.Outcome State Fault Refusal := bootRow 0x02 s

/-- SELECT_MOULD (R483). -/
def execSelectMould (s : State) : Host.Outcome State Fault Refusal := bootRow 0x03 s

/-- SELECT_SLOT (R483). -/
def execSelectSlot (s : State) : Host.Outcome State Fault Refusal := bootRow 0x04 s

/-- TRIAD_RESTART (R483). -/
def execTriadRestart (s : State) : Host.Outcome State Fault Refusal := bootRow 0x05 s

/-- REBOOT (R483). -/
def execReboot (s : State) : Host.Outcome State Fault Refusal := bootRow 0x06 s

/-! ## The boot sequence (R470, R480 to R482) -/

/-- BOOT_ANCHOR: RST_N and PGOOD_IN are both high; BOOT_MODE is sampled and the Starter runs its ROM, taking a command
written during reset first (R458, R470, R480). -/
def execBootAnchor (mode : BitVec 2) (s : State) : Host.Outcome State Fault Refusal :=
  .next (if ¬ s.boot.vaon ∨ ¬ s.boot.inReset then s
    else
      let s1 := setBoot { s.boot with
        inReset := false
        pgood := true
        mode := mode.toNat
        phase := .rom } (setEngine eStarter { run := .running, leftReset := s.now } s)
      let s2 := takeBootCommand s1
      if s2.boot.phase = .rom ∧ ¬ s2.boot.inReset then romRuns s2 else s2)

/-- The cores of tile t start from the running slot's image (R480). -/
def startTile (slot t : Nat) (s : State) : State :=
  match slotDir s slot with
  | none => s
  | some d => loadEngine (eTile t 1) 2 (slotImage s slot d 2) (loadEngine (eTile t 0) 2 (slotImage s slot d 2) s)

/-- Start the tile cores of the tiles whose domains are on. -/
def startTiles (slot : Nat) : List Nat → State → State
  | [], s => s
  | t :: ts, s => startTiles slot ts (if domainOn s (22 + t) then startTile slot t s else s)

/-- DOMAIN_POWER_ON: the sequencer's next domain reports on (R471, R486, R493). -/
def execDomainPowerOn (d : Fin 30) (s : State) : Host.Outcome State Fault Refusal :=
  .next (if s.boot.vaon ∧ ¬ s.boot.inReset ∧ mayPower s d.val then
      let s1 := domainStart d.val s
      if 22 ≤ d.val ∧ s.boot.committed then startTile s.boot.slot (d.val - 22) s1 else s1
    else s)

/-- Every domain the settings enable is on, or held off by a trip. -/
def domainsReady (s : State) : Bool :=
  powerOrder.all (fun d => !bitOf s.power.wanted d || domainOn s d || (s.power.tripHold && decide (4 ≤ d)))

/-- Steps 1 to 4 of R482: the stage opens and the records are applied. -/
def applySettings (s : State) : State :=
  let x := setInUse s
  let m := chooseMould s x
  let s1 := if m.2 then raise .starter Ev.mouldInvalid (selectedMould s x % 16) s else s
  let s2 := setBoot { s1.boot with
    phase := .applying
    chosen := m.1
    mouldInvalid := m.2
    refused := 0
    applied := true } (epochStageOp s1).2
  applyRecs ((x.map (fun i => i.base)).getD []) (mouldRecs x m.1) s2

/-- SETTINGS_APPLY: with its domains on, the slot's images are loaded and checked. A slot that fails is abandoned
for the next; else the engines start and the settings are applied (R480, R482, R507). -/
def execSettingsApply (s : State) : Host.Outcome State Fault Refusal :=
  .next (match s.boot.trying with
    | none => s
    | some n =>
      if s.boot.phase ≠ .loading ∨ ¬ domainsReady s then s
      else match slotDir s n with
        | none => trySlots s.boot.toTry s
        | some d =>
          if ¬ slotConsistent s n d then trySlots s.boot.toTry s
          else if ¬ slotSigned s n d then trySlots s.boot.toTry (raise .starter Ev.imageSignatureFail n s)
          else
            let s1 := setBoot { s.boot with slot := n, fw := d } s
            let s2 := startTiles n (List.range 8) (loadEngine eTime 1 (slotImage s n d 1) s1)
            applySettings (loadEngine eTriad 0 (slotImage s n d 0) s2))

/-- The READY bits that the boot commit waits for: every pipe, every route slice and the core functions, of the
domains that the settings enable (R482). -/
def bootReady (s : State) : Bool :=
  let on := fun (d : Nat) => bitOf s.power.wanted d
  (List.range 32).all (fun p => !on (4 + p / 8) || readyBit s p)
    && (List.range 64).all (fun k => !on (8 + k / 32) || readyBit s (32 + k))
    && readyBit s 115 && readyBit s 116 && (!on 10 || readyBit s 117) && (!on 11 || readyBit s 118)
    && (!(on 8 && on 9) || (readyBit s 121 && readyBit s 122 && readyBit s 123)) && readyBit s 124

/-- BOOT_COMMIT: T0 firmware commits once its READY bits are set (R482 step 5). -/
def execBootCommit (s : State) : Host.Outcome State Fault Refusal :=
  .next (if s.boot.phase = .applying ∧ s.boot.applied ∧ bootReady s then
      let o := epochCommitOp s
      if o.1 = rPending then setBoot { o.2.2.boot with applied := false, committing := some true } o.2.2 else s
    else s)

/-! ## Writing a settings set (R477) -/

/-- Bytes with four of them replaced by a number. -/
def putWord (bs : List Byte) (at_ v : Nat) : List Byte := bs.take at_ ++ leBytes 4 v ++ bs.drop (at_ + 4)

/-- A set as the Starter writes it: the next set_seq, and its CRC. -/
def sealSet (seq : Nat) (bs : List Byte) : List Byte :=
  let b := putWord bs 8 seq
  putWord b 252 (setCrc b)

/-- Ask for a set to be written into the half that does not hold the set in use. -/
def askSettings (bytes : List Byte) (s : State) : State :=
  let half := if s.boot.format = 0 then 0 else 1 - s.boot.half
  let seq := match setInUse s with
    | some x => x.seq + 1
    | none => 0
  { s with upd := { s.upd with op := some (.settings half (sealSet seq (bytes.take halfSize))) } }

/-- SETTINGS_WRITE: T0 firmware asks for a new set; none is written during an update (R477, R506). -/
def execSettingsWrite (bytes : List Byte) (s : State) : Host.Outcome State Fault Refusal :=
  .next (if s.boot.committed ∧ ¬ s.boot.halted ∧ s.upd.phase = .idle ∧ s.upd.op.isNone ∧ 256 ≤ bytes.length
      ∧ s.triad.mode ≠ .halted then askSettings bytes s
    else s)

end Sys2Proof.Machine
end

