-- ==== Sys2Proof/Machine/Control.lean ====
section
/-!
DEFINITION. Krenus-C branches, jumps, engine registers, TRAP.CALL, TRAP.RET and illegal words (R111, R118, R119).
-/
namespace Sys2Proof.Machine

/-- A branch: when taken, to PC + 4 × sign-extended off16 (R118). -/
def runBranch (e : EngineId) (ka kb : KReg) (off : BitVec 16) (test : Word64 → Word64 → Bool) (s : State) : State :=
  runInstr e (fun s =>
    if test (kget s e ka) (kget s e kb) then jumpTo e ((engine s e).pc + branchOff off) s
    else advance e s) s

/-- BEQ ka, kb, off16 (R118). -/
def execBeq (e : EngineId) (ka kb : KReg) (off : BitVec 16) (s : State) : Host.Outcome State Fault Refusal :=
  .next (runBranch e ka kb off (fun a b => a == b) s)

/-- BNE ka, kb, off16 (R118). -/
def execBne (e : EngineId) (ka kb : KReg) (off : BitVec 16) (s : State) : Host.Outcome State Fault Refusal :=
  .next (runBranch e ka kb off (fun a b => a != b) s)

/-- BLT ka, kb, off16 (R118). -/
def execBlt (e : EngineId) (ka kb : KReg) (off : BitVec 16) (s : State) : Host.Outcome State Fault Refusal :=
  .next (runBranch e ka kb off (fun a b => a.slt b) s)

/-- BGE ka, kb, off16 (R118). -/
def execBge (e : EngineId) (ka kb : KReg) (off : BitVec 16) (s : State) : Host.Outcome State Fault Refusal :=
  .next (runBranch e ka kb off (fun a b => !a.slt b) s)

/-- BLTU ka, kb, off16 (R118). -/
def execBltu (e : EngineId) (ka kb : KReg) (off : BitVec 16) (s : State) : Host.Outcome State Fault Refusal :=
  .next (runBranch e ka kb off (fun a b => a.ult b) s)

/-- BGEU ka, kb, off16 (R118). -/
def execBgeu (e : EngineId) (ka kb : KReg) (off : BitVec 16) (s : State) : Host.Outcome State Fault Refusal :=
  .next (runBranch e ka kb off (fun a b => !a.ult b) s)

/-- JAL off26: k1 takes PC + 4 (R118). -/
def execJal (e : EngineId) (off : BitVec 26) (s : State) : Host.Outcome State Fault Refusal :=
  .next (runInstr e (fun s =>
    let pc := (engine s e).pc
    jumpTo e (pc + off.signExtend 64 * 4) (kset e 1 (pc + 4) s)) s)

/-- JALR kd, imm16(ka): kd takes PC + 4; a misaligned target traps and completes no part (R83, R118). -/
def execJalr (e : EngineId) (kd ka : KReg) (imm : BitVec 16) (s : State) : Host.Outcome State Fault Refusal :=
  .next (runInstr e (fun s =>
    let pc := (engine s e).pc
    let target := kget s e ka + imm.signExtend 64
    if target.toNat % 4 = 0 then setPc e target (kset e kd (pc + 4) s)
    else trapHere e causeFetchAlign target s) s)

/-- Engine register `sel` as a tier reads it; none where R68 lists no such register or denies the tier. -/
def csrRead (s : State) (e : Nat) (sel : Nat) : Option Word64 :=
  let x := engine s e
  let t0 := tierOf s e = 0
  match sel with
  | 0 => some x.status
  | 1 => if t0 then some x.cause else none
  | 2 => if t0 then some x.epc else none
  | 3 => if t0 then some x.tval else none
  | 4 => if t0 then some x.tvec else none
  | 5 => if t0 then some x.scratch else none
  | 6 => some x.owner
  | 7 => some (cycleOf s e)
  | n =>
    if ¬ t0 then none
    else if n < 0x18 then some (mget 0 x.regionBase (n - 8))
    else if n < 0x28 then some (mget 0 x.regionLimit (n - 0x18))
    else none

/-- KC_STATUS after a T0 write: tier is read-only, bits [63:7] reserved (R69). -/
def statusWrite (old v : Word64) : Word64 :=
  BitVec.ofNat 64 (old.toNat % 4 + v.toNat % 128 / 4 * 4)

/-- Write engine register `sel` in T0; none where R68 permits no write. KC_OWNER keeps bits [31:0] (R257). -/
def csrWrite (x : Engine) (sel : Nat) (v : Word64) : Option Engine :=
  match sel with
  | 0 => some { x with status := statusWrite x.status v }
  | 1 => some { x with cause := v }
  | 2 => some { x with epc := v }
  | 3 => some { x with tval := v }
  | 4 => some { x with tvec := v }
  | 5 => some { x with scratch := v }
  | 6 => some { x with owner := BitVec.ofNat 64 (v.toNat % 2 ^ 32) }
  | 7 => none
  | n =>
    if n < 0x18 then some { x with regionBase := mset 0 x.regionBase (n - 8) v }
    else if n < 0x28 then some { x with regionLimit := mset 0 x.regionLimit (n - 0x18) v }
    else none

/-- CSR.RD kd, sel (R68, R119). -/
def execCsrRd (e : EngineId) (kd : KReg) (sel : BitVec 10) (s : State) : Host.Outcome State Fault Refusal :=
  .next (runInstr e (fun s =>
    match csrRead s e sel.toNat with
    | some v => advance e (kset e kd v s)
    | none => trapHere e causeTier ((encSys 0 kd 0 sel).setWidth 64) s) s)

/-- CSR.WR ka, sel (R68, R70, R119). -/
def execCsrWr (e : EngineId) (ka : KReg) (sel : BitVec 10) (s : State) : Host.Outcome State Fault Refusal :=
  .next (runInstr e (fun s =>
    let word := (encSys 1 0 ka sel).setWidth 64
    if tierOf s e ≠ 0 then trapHere e causeTier word s
    else match csrWrite (engine s e) sel.toNat (kget s e ka) with
      | none => trapHere e causeTier word s
      | some x =>
        if sel.toNat = 0 ∧ (kget s e ka).toNat / 4 % 4 = 3 then trapHere e causeIllegal word s
        else advance e (setEngine e x s)) s)

/-- TRAP.CALL sel: traps with TRAP_CALL from T1 or T2, KC_EPC the next instruction (R71, R83, R119). -/
def execTrapCall (e : EngineId) (sel : BitVec 10) (s : State) : Host.Outcome State Fault Refusal :=
  .next (runInstr e (fun s =>
    if tierOf s e = 0 then trapHere e causeIllegal ((encSys 2 0 0 sel).setWidth 64) s
    else takeTrap e causeCall (sel.setWidth 64) ((engine s e).pc + 4) s) s)

/-- TRAP.RET: T0 only (R119). -/
def execTrapRet (e : EngineId) (s : State) : Host.Outcome State Fault Refusal :=
  .next (runInstr e (fun s =>
    if tierOf s e = 0 then returnFromTrap e s
    else trapHere e causeTier ((encSys 3 0 0 0).setWidth 64) s) s)

/-- A word that is no instruction traps with ILLEGAL_INSTRUCTION (R111 to R113); a word that is one is not this
command, and nothing happens. -/
def execIllegalInstruction (e : EngineId) (word : BitVec 32) (s : State) : Host.Outcome State Fault Refusal :=
  .next (runInstr e (fun s =>
    if (decodeKrenus e word).isNone then trapHere e causeIllegal (word.setWidth 64) s else s) s)

end Sys2Proof.Machine
end

