-- ==== Sys2Proof/Machine/Gcm.lean ====
section
/-!
DEFINITION. AES-256 and the tag of AES-256-GCM over an empty plaintext (R461), on bytes as numbers below 256.
-/
namespace Sys2Proof.Machine

/-- Times x in GF(2⁸) modulo x⁸ + x⁴ + x³ + x + 1. -/
def xtime (a : Nat) : Nat := if a < 128 then 2 * a else (2 * a) ^^^ 0x11B

/-- Product in GF(2⁸), bit by bit of `b`. -/
def gfMulLoop : Nat → Nat → Nat → Nat → Nat
  | 0, _, _, acc => acc
  | n + 1, a, b, acc => gfMulLoop n (xtime a) (b / 2) (if b % 2 = 1 then acc ^^^ a else acc)

/-- Product in GF(2⁸). -/
def gfMul (a b : Nat) : Nat := gfMulLoop 8 a b 0

/-- The product of the squares x², x⁴, … of a power of x: after seven of them, x²⁵⁴, the inverse of x. -/
def gfInvLoop : Nat → Nat → Nat → Nat
  | 0, _, acc => acc
  | n + 1, p, acc => gfInvLoop n (gfMul p p) (gfMul acc (gfMul p p))

/-- A byte rotated left. -/
def rotl8 (a k : Nat) : Nat := a * 2 ^ k % 256 + a / 2 ^ (8 - k)

/-- The AES substitution of a byte. -/
def aesSub (a : Nat) : Nat :=
  let i := gfInvLoop 7 a 1
  i ^^^ rotl8 i 1 ^^^ rotl8 i 2 ^^^ rotl8 i 3 ^^^ rotl8 i 4 ^^^ 0x63

/-- Bytewise exclusive or. -/
def xorBytes (a b : List Nat) : List Nat := List.zipWith (fun x y => x ^^^ y) a b

/-- The round constant of the i-th use. -/
def aesRcon (i : Nat) : Nat := (List.range (i - 1)).foldl (fun a _ => xtime a) 1

/-- The next key word of AES-256 after the words so far. -/
def aesNextWord (ws : List (List Nat)) : List Nat :=
  let i := ws.length
  let t := ws.getD (i - 1) []
  let t := if i % 8 = 0 then xorBytes ((t.drop 1 ++ t.take 1).map aesSub) [aesRcon (i / 8), 0, 0, 0]
    else if i % 8 = 4 then t.map aesSub
    else t
  xorBytes (ws.getD (i - 8) []) t

/-- Further key words. -/
def aesWords : Nat → List (List Nat) → List (List Nat)
  | 0, ws => ws
  | n + 1, ws => aesWords n (ws ++ [aesNextWord ws])

/-- The 15 round keys of a 32-byte key. -/
def aesRoundKeys (key : List Nat) : List (List Nat) :=
  let ws := aesWords 52 ((List.range 8).map (fun i => (key.drop (4 * i)).take 4))
  (List.range 15).map (fun r => ((ws.drop (4 * r)).take 4).flatten)

/-- ShiftRows on 16 bytes in column order. -/
def aesShift (st : List Nat) : List Nat :=
  (List.range 16).map (fun i => st.getD (4 * ((i / 4 + i % 4) % 4) + i % 4) 0)

/-- MixColumns. -/
def aesMix (st : List Nat) : List Nat :=
  (List.range 16).map (fun i =>
    let b := fun k => st.getD (i / 4 * 4 + (i % 4 + k) % 4) 0
    xtime (b 0) ^^^ (xtime (b 1) ^^^ b 1) ^^^ b 2 ^^^ b 3)

/-- The rounds after the first round key; the last has no MixColumns. -/
def aesRounds : List (List Nat) → List Nat → List Nat
  | [], st => st
  | [k], st => xorBytes (aesShift (st.map aesSub)) k
  | k :: ks, st => aesRounds ks (xorBytes (aesMix (aesShift (st.map aesSub))) k)

/-- AES-256 of a 16-byte block. -/
def aes256 (key block : List Nat) : List Nat :=
  match aesRoundKeys key with
  | [] => block
  | k :: ks => aesRounds ks (xorBytes block k)

/-- Product in the field of GHASH: bit by bit of the left factor, its first bit the highest. -/
def ghashMul : Nat → Nat → Nat → Nat → Nat
  | 0, _, _, z => z
  | n + 1, x, v, z =>
    ghashMul n x (if v % 2 = 1 then (v / 2) ^^^ 0xE1000000000000000000000000000000 else v / 2)
      (if x / 2 ^ n % 2 = 1 then z ^^^ v else z)

/-- GHASH over 16-byte blocks of a byte list, zero-padded. -/
def ghash (h : Nat) : Nat → List Byte → Nat → Nat
  | 0, _, y => y
  | n + 1, bs, y => ghash h n (bs.drop 16) (ghashMul 128 (y ^^^ beNat (bytesAt bs 0 16)) h 0)

/-- The 16-byte tag of AES-256-GCM with an empty plaintext, a 12-byte IV and additional data. -/
def gcmTag (key : List Byte) (iv aad : List Byte) : List Byte :=
  let k := key.map (fun b => b.toNat)
  let enc := fun (b : List Byte) => beNat ((aes256 k (b.map (fun x => x.toNat))).map (fun x => BitVec.ofNat 8 x))
  let h := enc (List.replicate 16 0)
  let y := ghash h ((aad.length + 15) / 16) aad 0
  let y := ghashMul 128 (y ^^^ (8 * aad.length * 2 ^ 64)) h 0
  beBytes 16 (y ^^^ enc (iv ++ [0, 0, 0, 1]))

end Sys2Proof.Machine
end

