-- ==== Sys2Proof/Machine/CtlPort.lean ====
section
/-!
DEFINITION. The in-band control channel (R57, R459 to R466): control frames, their operations, sessions and replies.
-/
namespace Sys2Proof.Machine

/-- The state with the control port replaced. -/
def setCtl (x : CtlPortSt) (s : State) : State := { s with ctl := x }

/-- A channel. -/
def ctlChan (s : State) (c : Nat) : CtlChan := mget {} s.ctl.chans c

/-- The state with a channel replaced. -/
def setCtlChan (c : Nat) (x : CtlChan) (s : State) : State :=
  { s with ctl := { s.ctl with chans := mset {} s.ctl.chans c x } }

/-- The control port's owner name (R459). -/
def ctlOwner : Nat := ownerName 7 0

/-! ## Frames (R459 to R462) -/

/-- Whether two bytes at an offset are a VLAN tag's type (IEEE 802.1Q). -/
def vlanTypeAt (bs : List Byte) (i : Nat) : Bool := beAt bs i 2 == 0x8100 || beAt bs i 2 == 0x88A8

/-- The offset of EtherType 0x88B5 of a control frame: 12, or 16 or 20 behind VLAN tags (R459). -/
def ctlTypeAt (bs : List Byte) : Option Nat :=
  if beAt bs 12 2 = 0x88B5 then some 12
  else if ¬ vlanTypeAt bs 12 then none
  else if beAt bs 16 2 = 0x88B5 then some 16
  else if vlanTypeAt bs 16 ∧ beAt bs 20 2 = 0x88B5 then some 20
  else none

/-- `n` operations, and the bytes after them (R462). -/
def parseOps : Nat → List Byte → Option (List (Nat × List Byte) × List Byte)
  | 0, bs => some ([], bs)
  | n + 1, bs =>
    let len := beAt bs 2 2
    let whole := 4 + (len + 3) / 4 * 4
    if bs.length < whole then none
    else (parseOps n (bs.drop whole)).map (fun r => ((leAt bs 0 1, bytesAt bs 4 len) :: r.1, r.2))

/-- The operations of a frame's body, where op_count agrees with them; a frame of the smallest size may hold padding
before its tag. -/
def frameOps (count size : Nat) (body : List Byte) : Option (List (Nat × List Byte)) :=
  if 1024 < count then none
  else match parseOps count body with
    | some (ops, rest) => if rest = [] ∨ size ≤ 64 then some ops else none
    | none => none

/-- The key of a slot as 32 bytes: byte i is key bits [8i + 7:8i]. -/
def keyBytes (k : Nat) : List Byte := leBytes 32 k

/-- The IV of a frame (R461). -/
def ctlIv (session channel sequence : Nat) (isReply : Bool) : List Byte :=
  beBytes 4 session ++ beBytes 4 (b2n isReply * 2 ^ 31 + channel) ++ beBytes 4 sequence

/-- Whether a control frame's tag passes; `h` is the offset of its header, `bs` the frame without its FCS (R461). -/
def ctlTagOk (s : State) (h : Nat) (bs : List Byte) : Bool :=
  let aad := bs.take (bs.length - 16)
  let channel := leAt bs (h + 2) 1
  match if leAt bs (h + 3) 1 ≤ 1 then mget none s.ctl.keys (leAt bs (h + 3) 1) else none with
  | none => false
  | some k => decide (channel ≤ 63)
      && gcmTag (keyBytes k) (ctlIv (beAt bs (h + 4) 4) channel (beAt bs (h + 8) 4) false) aad == bs.drop (bs.length - 16)

/-! ## Operations (R462) -/

/-- An operation's answer: result code, value, state. -/
abbrev OpResult := Nat × Nat × State

/-- REG_WRITE and REG_READ with the rights of T1 (R449, R462). -/
def ctlReg (src : Source) (write : Bool) (o : List Byte) (s : State) : OpResult :=
  let a := beAt o 0 4
  if a % 4 ≠ 0 then (rRange, 0, s)
  else if ¬ sourceMay s src write a then (rRefused, 0, s)
  else if write then (rOk, 0, ctlWrite src a (beAt o 4 4) s)
  else (rOk, (ctlRead src a s).1, (ctlRead src a s).2)

/-- IMAGE_LOAD: the image is checked when its last byte arrives (R102, R462). -/
def ctlImage (o : List Byte) (s : State) : OpResult :=
  let off := beAt o 0 4
  let total := beAt o 4 4
  let bytes := o.drop 8
  if total < off + bytes.length then (rRange, 0, s)
  else
    let old := match s.ctl.image with
      | some i => if i.1 = total then i.2 else []
      | none => []
    let base := old.take off ++ List.replicate (off - old.length) 0
    let image := base ++ bytes ++ old.drop (off + bytes.length)
    if off + bytes.length = total then (rOk, 0, startImage image (setCtl { s.ctl with image := none } s))
    else (rOk, 0, setCtl { s.ctl with image := some (total, image) } s)

/-- Whether an operand's length fits its code (R462). -/
def opFits (code : Nat) (o : List Byte) : Bool :=
  decide (o.length ≤ 8192) && (match code with
    | 0x01 => o.length == 8
    | 0x02 => o.length == 4
    | 0x03 => decide (8 ≤ o.length) | 0x04 => decide (8 ≤ o.length) | 0x05 => decide (8 ≤ o.length)
    | 0x06 => decide (8 ≤ o.length)
    | 0x07 => o.isEmpty | 0x08 => o.isEmpty | 0x0A => o.isEmpty
    | 0x09 => o.length == 16
    | 0x0B => decide (8 ≤ o.length)
    | _ => false)

/-- One operation of a channel (R462). -/
def ctlOp (src : Source) (code : Nat) (o : List Byte) (s : State) : OpResult :=
  if ¬ opFits code o then (rRange, 0, s)
  else match code with
    | 0x01 => ctlReg src true o s
    | 0x02 => ctlReg src false o s
    | 0x03 => tblApply .wr (beAt o 0 8) (o.drop 8) s
    | 0x04 => tblApply .ins (beAt o 0 8) (o.drop 8) s
    | 0x05 => tblApply .del (beAt o 0 8) (o.drop 8) s
    | 0x06 => tblApply .prog (beAt o 0 8) (o.drop 8) s
    | 0x07 => ((epochStageOp s).1, 0, (epochStageOp s).2)
    | 0x08 => epochCommitOp s
    | 0x09 => match recordTime o with
      | none => (rRange, 0, s)
      | some due => epochCommitAtOp due s
    | 0x0A => ((epochCancelOp s).1, 0, (epochCancelOp s).2)
    | _ => ctlImage o s

/-- The event of an operation, with the address of codes 0x01 and 0x02 (R510). -/
def opEvent (code : Nat) (o : List Byte) : PerfEvent :=
  { code := 0x061, master := 0x34, addr := if code = 1 ∨ code = 2 then some (beAt o 0 4) else none }

/-- Issue a frame's operations in order: the records of the reply, and the state (R463, R464). -/
def applyOps (src : Source) : List (Nat × List Byte) → State → List Byte × State
  | [], s => ([], s)
  | op :: ops, s =>
    let r := ctlOp src op.1 op.2 (perfEvent (opEvent op.1 op.2) s)
    let rest := applyOps src ops (setCtl { r.2.2.ctl with applied := (r.2.2.ctl.applied + 1) % 2 ^ 32 } r.2.2)
    (beBytes 1 op.1 ++ beBytes 1 r.1 ++ [0, 0] ++ beBytes 8 r.2.1 ++ rest.1, rest.2)

/-! ## Replies (R464) -/

/-- The MAC_ADDR of a port. -/
def portAddress (s : State) (port : Nat) : Nat := rwField s (.mac port) 7 15 0 * 2 ^ 32 + rwField s (.mac port) 6 31 0

/-- A reply's bytes without its FCS: header, records, padding to the smallest frame, tag. -/
def replyBytes (c : Nat) (ch : CtlChan) (f : CtlFrame) (key srcAddr status : Nat) (records : List Byte) : List Byte :=
  let session := ch.session.getD 0
  let head := f.replyTo ++ beBytes 6 srcAddr ++ f.tags ++ beBytes 2 0x88B5
    ++ beBytes 1 1 ++ beBytes 1 1 ++ beBytes 1 c ++ beBytes 1 f.slot ++ beBytes 4 session ++ beBytes 4 ch.replies
    ++ beBytes 4 ch.next ++ beBytes 2 (records.length / 12) ++ beBytes 1 status ++ [0] ++ records
  let padded := head ++ List.replicate (44 - head.length) 0
  padded ++ gcmTag (keyBytes key) (ctlIv session c ch.replies true) padded

/-- Send a reply where the request came from (R464). -/
def sendReply (f : CtlFrame) (bs : List Byte) (s : State) : State :=
  if f.unit ≠ s.roll.unit then emit (.reply f.unit f.port (bs ++ fcsOf bs)) s
  else if portExists s f.port then
    setMac f.port { macOf s f.port with queue := (macOf s f.port).queue ++ [{ bytes := bs, ready := s.now }] } s
  else s

/-- Reply to a frame of channel c, where its slot still holds a key: 0 APPLIED, 1 HELD, 2 DUPLICATE, 3 MALFORMED. -/
def ctlReply (c : Nat) (f : CtlFrame) (status : Nat) (records : List Byte) (s : State) : State :=
  match mget none s.ctl.keys f.slot with
  | none => s
  | some key =>
    let ch := ctlChan s c
    let a := if f.unit = s.roll.unit then (portAddress s f.port, s)
      else ((Sys2Proof.Config.freeValue s.freeCtr).toNat % 2 ^ 48, { s with freeCtr := s.freeCtr + 1 })
    sendReply f (replyBytes c ch f key a.1 status records)
      (setCtlChan c { ch with replies := (ch.replies + 1) % 2 ^ 32 } a.2)

/-! ## Sessions (R463) -/

/-- The hold of a frame that the port has applied or discarded ends. -/
def endCtl (f : CtlFrame) (s : State) : State := hwEndHold ctlOwner f.cell s

/-- Apply the next expected frame, or leave a malformed one unapplied, and reply. -/
def applyCtl (c : Nat) (f : CtlFrame) (s : State) : State :=
  let r := match f.ops with
    | none => ([], s)
    | some ops => applyOps (.inband (Fin.ofNat 64 c)) ops s
  let s1 := setCtlChan c { ctlChan r.2 c with next := (ctlChan r.2 c).next + 1, gapRaised := false } r.2
  ctlReply c f (if f.ops.isSome then 0 else 3) r.1 (endCtl f s1)

/-- Apply the held frames that follow without a gap. -/
def drainHeld (c : Nat) : Nat → State → State
  | 0, s => s
  | n + 1, s =>
    match (ctlChan s c).held with
    | [] => s
    | f :: fs =>
      if f.seq = (ctlChan s c).next then
        drainHeld c n (applyCtl c f (setCtlChan c { ctlChan s c with held := fs } s))
      else s

/-- CTRL_SEQ_GAP, once per gap (R57, R446, R463). -/
def raiseGap (c : Nat) (s : State) : State :=
  let ch := ctlChan s c
  match ch.held with
  | [] => s
  | f :: _ =>
    if ch.gapRaised then s
    else raiseAt (blockPlace .ctlport) Ev.ctrlSeqGap (c + ch.next % 2 ^ 32 * 2 ^ 6) f.seq
      (setCtlChan c { ch with gapRaised := true } s)

/-- Put a frame among the held, by its sequence. -/
def holdFrame (f : CtlFrame) : List CtlFrame → List CtlFrame
  | [] => [f]
  | x :: xs => if f.seq < x.seq then f :: x :: xs else x :: holdFrame f xs

/-- End the holds of a list of frames. -/
def endAll : List CtlFrame → State → State
  | [], s => s
  | f :: fs, s => endAll fs (endCtl f s)

/-- A frame of the channel's session (R463). -/
def sessionFrame (c : Nat) (f : CtlFrame) (s : State) : State :=
  let ch := ctlChan s c
  if f.seq = ch.next then raiseGap c (drainHeld c ch.held.length (applyCtl c f s))
  else if f.seq < ch.next then
    ctlReply c f 2 [] (endCtl f (setCtl { s.ctl with duplicates := (s.ctl.duplicates + 1) % 2 ^ 32 } s))
  else if f.seq ≤ ch.next + 64 ∧ ¬ ch.held.any (fun x => x.seq == f.seq) then
    ctlReply c f 1 [] (raiseGap c (setCtlChan c { ch with held := holdFrame f ch.held } s))
  else ctlReply c f 1 [] (endCtl f s)

/-- An authenticated frame of a channel (R463). -/
def channelFrame (c session : Nat) (f : CtlFrame) (s : State) : State :=
  let ch := ctlChan s c
  if ch.session = some session then sessionFrame c f s
  else if f.seq = 0 ∧ ¬ ch.replaced.contains session then
    sessionFrame c f (setCtlChan c { session := some session, replaced := ch.replaced ++ ch.session.toList } (endAll ch.held s))
  else endCtl f (setCtl { s.ctl with stale := (s.ctl.stale + 1) % 2 ^ 32 } s)

/-! ## The control port (R459, R461) -/

/-- A frame that is not authenticated: counted, and an event at most once per ms (R461). -/
def authFail (r : Rind) (channel : Nat) (s : State) : State :=
  let s1 := setCtl { s.ctl with fails := (s.ctl.fails + 1) % 2 ^ 32 } s
  let remote := r.sourceUnit ≠ s.roll.unit
  if s.ctl.failAt ≠ 0 ∧ s.now < s.ctl.failAt - 1 + psMs then s1
  else raise .ctlport Ev.ctrlAuthFail (r.ingressPort + b2n remote * 2 ^ 9 + channel % 64 * 2 ^ 10
      + (if remote then r.sourceUnit * 2 ^ 16 else 0)) (setCtl { s1.ctl with failAt := s.now + 1 } s1)

/-- A control frame whose hold the control port has; `e` is the offset of its EtherType, `bs` its bytes. -/
def portFrame (r : Rind) (e cell : Nat) (bs : List Byte) (s : State) : State :=
  let body := bs.take (bs.length - 4)
  let h := e + 2
  let f : CtlFrame := {
    seq := beAt body (h + 8) 4
    slot := leAt body (h + 3) 1
    ops := frameOps (beAt body (h + 16) 2) bs.length ((body.take (body.length - 16)).drop (h + 20))
    cell := cell
    replyTo := bytesAt body 6 6
    tags := bytesAt body 12 (e - 12)
    unit := r.sourceUnit
    port := r.ingressPort }
  if s.triad.mode = .halted then endCtl f s
  else if leAt body h 1 ≠ 1 ∨ bitOf (leAt body (h + 1) 1) 0 ∨ 9216 < bs.length ∨ body.length < h + 36 then endCtl f s
  else if ¬ ctlTagOk s h body then endCtl f (authFail r (leAt body (h + 2) 1) s)
  else channelFrame (leAt body (h + 2) 1) (beAt body (h + 4) 4) f s

/-- A frame that is not a control frame: to the T1 program that asked, or freed (R459). -/
def otherFrame (r : Rind) (cell : Nat) (bs : List Byte) (s : State) : State :=
  match s.ctl.listener with
  | none => hwEndHold ctlOwner cell (whey Wh.noResult r.ingressPort s)
  | some o =>
    let g := govern s cell
    let x := mget {} s.vat.held g
    emit (.toSoftware cell bs) (if x.owner = ctlOwner then setRecord g o x.holds s else s)

/-- The queue's hold passes to the control port, and the descriptor returns (R459). -/
def takeHold (i : Nat) (s : State) : State :=
  let d := desc s i
  let g := govern s (handle 0 d.firstCell)
  let x := mget {} s.vat.held g
  freeDescSlot i (if x.owner = holderOf d then setRecord g ctlOwner x.holds s else s)

/-- CONTROL_FRAME: the control port takes the head frame of a control queue (R459); a wrong or bad descriptor, or a Rind
of another version, is dropped (R171, R269). -/
def execControlFrame (q : QueueId) (s : State) : Host.Outcome State Fault Refusal :=
  .next (if ¬ domainOn s 1 ∨ rwField s .ctlport 0 0 0 = 0 ∨ (qcfg s q).role ≠ 3 ∨ ¬ (qst s q).resident then s
    else match (qst s q).head with
      | [] => s
      | i :: _ =>
        let d := desc s i
        let s1 := popHead q s
        if ¬ descOk s d then dropWrongDesc i d.rind.ingressPort s1
        else if frameBad s d then endDesc i (whey Wh.parity d.rind.ingressPort s1)
        else if d.rind.version ≠ 1 then endDesc i (whey Wh.rindInvalid d.rind.ingressPort s1)
        else
          let cell := handle 0 d.firstCell
          let bs := frameBytes s d
          let s2 := takeHold i s1
          match ctlTypeAt bs with
          | some e => portFrame d.rind e cell bs s2
          | none => otherFrame d.rind cell bs s2)

end Sys2Proof.Machine
end

