-- ==== Sys2Proof/Machine/I3c.lean ====
section
/-!
DEFINITION. The I3C target (R450 to R457): addresses, CCCs, register messages, Hot-Join and in-band interrupts.
-/
namespace Sys2Proof.Machine

/-- The state with the target replaced. -/
def setI3c (x : I3cSt) (s : State) : State := { s with i3c := x }

/-- The target follows the bus in SDR: VAON is up and no HDR mode is on the bus (R450, R458). -/
def i3cSdr (s : State) : Bool := s.boot.vaon && !s.i3c.inHdr

/-- The target takes messages of its own address, in SDR or in HDR-DDR (R452, R454). -/
def i3cAddressed (s : State) : Bool := s.boot.vaon && s.i3c.addr.isSome && !s.i3c.ignoring

/-- Direct CCCs reach it: its address is held and the bus is in SDR (R452). -/
def i3cDirect (s : State) : Bool := i3cAddressed s && i3cSdr s

/-- Send bytes on the bus. -/
def i3cSend (bytes : List Byte) (s : State) : State := emit (.i3c bytes) s

/-- Answer a direct CCC with bytes. -/
def cccAnswer (bytes : State → List Byte) (s : State) : State := if i3cDirect s then i3cSend (bytes s) s else s

/-- Answer a direct CCC whose bytes the spec does not give: free values. -/
def cccFree (n : Nat) (s : State) : State :=
  if i3cDirect s then
    let d := freeDraw s
    i3cSend (beBytes n d.1.toNat) d.2
  else s

/-! ## Address assignment (R452) -/

/-- ENTDAA: a unit without an address that wins the arbitration takes the address (R452). -/
def execEntdaa (won : Bool) (addr : BitVec 7) (s : State) : Host.Outcome State Fault Refusal :=
  .next (if i3cSdr s ∧ s.i3c.addr = none ∧ won then setI3c { s.i3c with addr := some addr.toNat } s else s)

/-- RSTDAA (R452). -/
def execRstdaa (s : State) : Host.Outcome State Fault Refusal :=
  .next (if i3cSdr s then setI3c { s.i3c with addr := none } s else s)

/-- SETNEWDA, at the STOP that ends it (R452). -/
def execSetnewda (addr : BitVec 7) (s : State) : Host.Outcome State Fault Refusal :=
  .next (if i3cDirect s then setI3c { s.i3c with addr := some addr.toNat } s else s)

/-! ## CCCs (R450, R451, R453) -/

/-- GETPID: 48 bits, most significant byte first (R451). -/
def execGetpid (s : State) : Host.Outcome State Fault Refusal :=
  .next (cccAnswer (fun _ => beBytes 6 (0x50A9 * 2 ^ 32 + Sys2Proof.Config.pidLow.toNat)) s)

/-- GETBCR: 0x2E (R451). -/
def execGetbcr (s : State) : Host.Outcome State Fault Refusal := .next (cccAnswer (fun _ => [0x2E]) s)

/-- GETDCR: 0x00 (R451). -/
def execGetdcr (s : State) : Host.Outcome State Fault Refusal := .next (cccAnswer (fun _ => [0x00]) s)

/-- GETSTATUS: two bytes, whose values the spec does not state (R450). -/
def execGetstatus (s : State) : Host.Outcome State Fault Refusal := .next (cccFree 2 s)

/-- GETMWL (R451). -/
def execGetmwl (s : State) : Host.Outcome State Fault Refusal := .next (cccAnswer (fun s => beBytes 2 s.i3c.mwl) s)

/-- GETMRL, with the interrupt payload length (R451). -/
def execGetmrl (s : State) : Host.Outcome State Fault Refusal :=
  .next (cccAnswer (fun s => beBytes 2 s.i3c.mrl ++ beBytes 1 s.i3c.ibiLen) s)

/-- SETMWL, direct or broadcast (R450). -/
def execSetmwl (n : BitVec 16) (s : State) : Host.Outcome State Fault Refusal :=
  .next (if i3cSdr s then setI3c { s.i3c with mwl := n.toNat } s else s)

/-- SETMRL, direct or broadcast (R450). -/
def execSetmrl (n : BitVec 16) (ibi : BitVec 8) (s : State) : Host.Outcome State Fault Refusal :=
  .next (if i3cSdr s then setI3c { s.i3c with mrl := n.toNat, ibiLen := ibi.toNat } s else s)

/-- GETMXDS: two bytes, whose values the spec does not state (R450). -/
def execGetmxds (s : State) : Host.Outcome State Fault Refusal := .next (cccFree 2 s)

/-- GETCAPS: four bytes, whose values the spec does not state (R450). -/
def execGetcaps (s : State) : Host.Outcome State Fault Refusal := .next (cccFree 4 s)

/-- Set the enables that an event byte names: bit 0 interrupts, bit 3 Hot-Join (R453, R456). -/
def eventEnables (bits : BitVec 8) (on : Bool) (s : State) : State :=
  if i3cSdr s then
    setI3c { s.i3c with
      ibiEnabled := if bits.getLsbD 0 then on else s.i3c.ibiEnabled
      hjEnabled := if bits.getLsbD 3 then on else s.i3c.hjEnabled } s
  else s

/-- ENEC (R453). -/
def execEnec (bits : BitVec 8) (s : State) : Host.Outcome State Fault Refusal := .next (eventEnables bits true s)

/-- DISEC (R453). -/
def execDisec (bits : BitVec 8) (s : State) : Host.Outcome State Fault Refusal := .next (eventEnables bits false s)

/-- ENTHDR0: HDR-DDR (R450). -/
def execEnthdr0 (s : State) : Host.Outcome State Fault Refusal :=
  .next (if i3cSdr s then setI3c { s.i3c with inHdr := true } s else s)

/-- ENTHDR1 to ENTHDR3: the bus is ignored until the HDR Exit Pattern (R450). -/
def execEnthdrUnsupported (s : State) : Host.Outcome State Fault Refusal :=
  .next (if i3cSdr s then setI3c { s.i3c with inHdr := true, ignoring := true } s else s)

/-- The HDR Exit Pattern (R450). -/
def execHdrExitPattern (s : State) : Host.Outcome State Fault Refusal :=
  .next (if s.boot.vaon then setI3c { s.i3c with inHdr := false, ignoring := false } s else s)

/-! ## Register messages (R454, R455) -/

/-- The address of the k-th register of a message. -/
def i3cRegister (base k : Nat) : Nat := (base + 16 * k) % 2 ^ 32

/-- A message is discarded and counted; where `report`, the next READ returns BAD_MESSAGE (R455). -/
def i3cDiscard (report : Bool) (s : State) : State :=
  setI3c { s.i3c with errors := (s.i3c.errors + 1) % 2 ^ 32, bad := s.i3c.bad || report } s

/-- Write data words to the registers of a message, in order. -/
def i3cWrites (base : Nat) : Nat → List Byte → State → State
  | 0, _, s => s
  | n + 1, bytes, s => i3cWrites (base + 16) n (bytes.drop 4) (ctlWrite .i3c (base % 2 ^ 32) (leNat (bytes.take 4)) s)

/-- A private write that ended (R454, R455). -/
def privateWrite (bytes : List Byte) (parityOk : Bool) (s : State) : State :=
  if ¬ i3cAddressed s then s
  else
    let kind := bytes.head?
    let base := leNat ((bytes.drop 1).take 4)
    let n := (bytes.length - 5) / 4
    let m := ((bytes.drop 5).headD 0).toNat
    if s.i3c.inHdr ∧ kind ≠ some 1 ∧ kind ≠ some 2 then i3cDiscard false s
    else if ¬ parityOk ∨ s.i3c.mwl < bytes.length then i3cDiscard true s
    else if kind = some 1 ∧ bytes.length = 5 + 4 * n ∧ 1 ≤ n ∧ n ≤ 16 then i3cWrites base n (bytes.drop 5) s
    else if kind = some 2 ∧ bytes.length = 6 ∧ 1 ≤ m ∧ m ≤ 16 then
      setI3c { s.i3c with setup := some { addr := base, n := m, endedAt := s.now } } s
    else i3cDiscard true s

/-- WRITE (R454, R455). -/
def execI3cWrite (bytes : List Byte) (parityOk : Bool) (s : State) : Host.Outcome State Fault Refusal :=
  .next (privateWrite bytes parityOk s)

/-- READ_SETUP (R454, R455). -/
def execI3cReadSetup (bytes : List Byte) (parityOk : Bool) (s : State) : Host.Outcome State Fault Refusal :=
  .next (privateWrite bytes parityOk s)

/-- The values of n registers, and the state after reading them in order. -/
def i3cReads (base : Nat) : Nat → State → List Byte × State
  | 0, s => ([], s)
  | n + 1, s =>
    let r := ctlRead .i3c (base % 2 ^ 32) s
    let rest := i3cReads (base + 16) n r.2
    (leBytes 4 r.1 ++ rest.1, rest.2)

/-- A private read: BAD_MESSAGE, NO_SETUP, BUSY or the values (R454, R455). -/
def privateRead (s : State) : State :=
  if s.i3c.bad then i3cSend [3] (setI3c { s.i3c with bad := false, setup := none } s)
  else match s.i3c.setup with
  | none => i3cSend [2] s
  | some r =>
    if s.i3c.mrl < 1 + 4 * r.n then
      i3cSend [3] (setI3c { s.i3c with setup := none, errors := (s.i3c.errors + 1) % 2 ^ 32 } s)
    else if s.now < r.endedAt + 2 * psUs then i3cSend [1] s
    else
      let v := i3cReads r.addr r.n (setI3c { s.i3c with setup := none } s)
      i3cSend (0 :: v.1) v.2

/-- READ; in HDR-DDR its command code is 0x82, and any other is discarded and counted (R454, R455). -/
def execI3cRead (code : BitVec 8) (s : State) : Host.Outcome State Fault Refusal :=
  .next (if ¬ i3cAddressed s then s
    else if s.i3c.inHdr ∧ code ≠ 0x82 then i3cDiscard false s
    else privateRead s)

/-! ## Hot-Join (R453) -/

/-- HOT_JOIN_REQUEST: after 1 ms of Bus Idle, and again every 10 ms; an answer other than an address changes
nothing (R453). -/
def execHotJoinRequest (_acked : Bool) (s : State) : Host.Outcome State Fault Refusal :=
  .next (if i3cSdr s ∧ s.boot.pgood ∧ s.i3c.addr = none ∧ s.i3c.hjEnabled
      ∧ (s.i3c.hotJoinAt = 0 ∨ s.i3c.hotJoinAt - 1 + 10 * psMs ≤ s.now) then
      emit .hotJoin (setI3c { s.i3c with hotJoinAt := s.now + 1 } s)
    else s)

/-! ## In-band interrupts (R456) -/

/-- Whether the condition of MDB 0xA1 + k holds (R456). -/
def ibiCondition (s : State) (k : Nat) : Bool := bitOf (roAon s .i3c 15) k

/-- Whether source k is to request: enabled, its condition true, and not within ibi_repeat_ms of its last request. -/
def ibiDue (s : State) (k : Nat) : Bool :=
  let at_ := mget 0 s.i3c.ibiAt k
  bitOf (rwField s .i3c 14 3 0) k && ibiCondition s k
    && (at_ == 0 || decide (at_ - 1 + rwField s .i3c 14 15 8 * psMs ≤ s.now))

/-- The payload of source k (R456). -/
def ibiPayload (s : State) (k : Nat) : Nat :=
  match k with
  | 0 => faultStatus s
  | 1 => rwField s .i3c 3 31 0
  | 2 => readyDiff s .i3c 5
  | _ => s.ledger.head

/-- IBI_REQUEST: a due source asks, the one of the lowest MDB first (R456). -/
def execIbiRequest (src : Fin 4) (acked : Bool) (s : State) : Host.Outcome State Fault Refusal :=
  .next (if i3cDirect s ∧ s.i3c.ibiEnabled ∧ ibiDue s src.val ∧ (List.range src.val).all (fun k => !ibiDue s k) then
      emit (.ibi (0xA1 + src.val) (if acked then leBytes 4 (ibiPayload s src.val) else []))
        (setI3c { s.i3c with ibiAt := mset 0 s.i3c.ibiAt src.val (s.now + 1) } s)
    else s)

/-- A source whose condition no longer holds asks at once when it next becomes true (R456). -/
def ibiSettle (s : State) : State :=
  if s.i3c.ibiAt.isEmpty then s
  else { s with i3c := { s.i3c with ibiAt := s.i3c.ibiAt.filter (fun p => ibiCondition s p.1) } }

end Sys2Proof.Machine
end

