-- ==== Sys2Proof/Machine/Monitor.lean ====
section
/-!
DEFINITION. The monitors (R526, R527, R533, R534): rail and temperature samples, a thermal trip, VCORE targets.
-/
namespace Sys2Proof.Machine

/-! ## Rails (R526, R533) -/

/-- Nominal mV of rails 2 to 8. -/
def railNominal : Nat → Nat
  | 2 => 750 | 3 => 900 | 4 => 1200 | 5 => 1100 | 6 => 400 | 7 => 1800 | _ => 800

/-- Whether a rail's reading is outside its margin band (R533). -/
def railOutside (s : State) (r mv : Nat) : Bool :=
  if r ≤ 1 then
    decide (mv + 15 < (if r = 0 then s.sensor.targetA else s.sensor.targetB)) || decide (765 < mv)
  else decide (mv * 100 < railNominal r * 97) || decide (railNominal r * 103 < mv * 100)

/-- One rail's sample; SUPPLY_MARGIN_ALARM at most once per ms and rail. -/
def railSample (r mv : Nat) (s : State) : State :=
  let out := railOutside s r mv
  let was := bitOf s.sensor.railOut r
  let s1 := { s with sensor := { s.sensor with
    rails := mset 0 s.sensor.rails r mv
    railOut := if out && !was then s.sensor.railOut + 2 ^ r else if was && !out then s.sensor.railOut - 2 ^ r else s.sensor.railOut } }
  let last := mget 0 s.sensor.railAt r
  if out ∧ ¬ was ∧ (last = 0 ∨ last - 1 + psMs ≤ s.now) then
    raise .sensor Ev.supplyMarginAlarm (r + mv * 2 ^ 4)
      { s1 with sensor := { s1.sensor with railAt := mset 0 s1.sensor.railAt r (s.now + 1) } }
  else s1

/-- Samples of rails, from rail r on. -/
def railSamples (r : Nat) : List (BitVec 12) → State → State
  | [], s => s
  | v :: vs, s => railSamples (r + 1) vs (railSample r v.toNat s)

/-- RAIL_SAMPLE: the rails' readings, rail 0 first (R533). -/
def execRailSample (mv : List (BitVec 12)) (s : State) : Host.Outcome State Fault Refusal :=
  .next (if s.boot.vaon then railSamples 0 (mv.take 9) s else s)

/-! ## Temperatures (R533) -/

/-- The trip level of a sensor in quarter degrees. -/
def tripLevel (i : Nat) : Int := if i < 10 then 460 else 400

/-- A trip: PD04 to PD29 are held off (R533). -/
def thermalTrip (s : State) : State :=
  let s1 := domainsOff ((powerOrder.filter (fun d => decide (4 ≤ d) && domainOn s d)).reverse) s
  { s1 with power := { s1.power with tripHold := true } }

/-- One sensor's sample: its alarm, then its trip. -/
def tempSample (i : Nat) (v : BitVec 11) (s : State) : State :=
  let old := signed 11 (mget 0 s.sensor.temps i)
  let s1 := { s with sensor := { s.sensor with temps := mset 0 s.sensor.temps i v.toNat } }
  let on := sensorAlarm s1 i
  let was := bitOf s.sensor.alarms i
  let s2 := if on && !was then
      raise .sensor Ev.thermalAlarm (i + v.toNat * 2 ^ 5) { s1 with sensor := { s1.sensor with alarms := s1.sensor.alarms + 2 ^ i } }
    else if was && !on then { s1 with sensor := { s1.sensor with alarms := s1.sensor.alarms - 2 ^ i } } else s1
  if tripLevel i ≤ v.toInt then
    thermalTrip (if old < tripLevel i then raise .sensor Ev.thermalAlarm (i + v.toNat * 2 ^ 5 + 2 ^ 47) s2 else s2)
  else s2

/-- Samples of sensors, from sensor i on. -/
def tempSamples (i : Nat) : List (BitVec 11) → State → State
  | [], s => s
  | v :: vs, s => tempSamples (i + 1) vs (tempSample i v s)

/-- TEMPERATURE_SAMPLE: the sensors' readings in 0.25 °C, sensor 0 first (R533). -/
def execTemperatureSample (temps : List (BitVec 11)) (s : State) : Host.Outcome State Fault Refusal :=
  .next (if s.boot.vaon then tempSamples 0 (temps.take 18) s else s)

/-! ## VCORE targets (R527) -/

/-- VCORE_TARGET_STEP: a side's target moves by 5 mV, at most once every 10 ms, within 650 to 750 mV (R527, R534). -/
def execVcoreTargetStep (side : Fin 2) (target : BitVec 10) (s : State) : Host.Outcome State Fault Refusal :=
  let old := if side = 0 then s.sensor.targetA else s.sensor.targetB
  let v := target.toNat
  let last := mget 0 s.sensor.targetAt side.val
  .next (if s.boot.vaon ∧ 650 ≤ v ∧ v ≤ 750 ∧ (v = old + 5 ∨ v + 5 = old) ∧ (last = 0 ∨ last - 1 + 10 * psMs ≤ s.now) then
      { s with sensor := { s.sensor with
        targetA := if side = 0 then v else s.sensor.targetA
        targetB := if side = 0 then s.sensor.targetB else v
        targetAt := mset 0 s.sensor.targetAt side.val (s.now + 1) } }
    else s)

end Sys2Proof.Machine
end

