-- ==== Sys2Proof/Machine/Pager.lean ====
section
/-!
DEFINITION. The pager's commands (R277, R287 to R295): its order of service, states and pages in and out,
prefetches, the ends of flushes, and the rebuild of queue-state copies.
-/
namespace Sys2Proof.Machine

/-! ## The order of service (R292) -/

/-- Whether a head waits for a page whose read is not issued and can be. -/
def headWaits (s : State) : Bool :=
  decide (readsOpen s < 1024) && s.qm.states.any (fun p => p.2.resident && p.2.miss && !p.2.reading)

/-- Whether a state must come in for journal entries and the cache can take it (R287, R288). -/
def fetchWaits (s : State) : Bool :=
  (decide (residentCount s < 32768) || (oldestState s).isSome) && s.qm.journal.any (fun j => !(qst s j.1).resident)

/-- When the oldest staging frame of a queue was enqueued here. -/
def stagedSince (s : State) (x : QSt) : Nat := (desc s (x.tail.headD 0)).enqueuedAt

/-- Whether the staging list of a queue is due for a page: it fills one, or its oldest frame has waited page_flush_us
(R290). -/
def pageDue (s : State) (x : QSt) : Bool :=
  x.resident && !x.tail.isEmpty && anyChanReady s
    && (pageFull s x || decide (stagedSince s x + rwField s .pager 0 7 0 * psUs ≤ s.now))

/-- Whether another queue's page-out comes first: its oldest staging frame is older. -/
def olderStaged (s : State) (q : Nat) : Bool :=
  s.qm.states.any (fun p => decide (p.1 ≠ q) && pageDue s p.2 && decide (stagedSince s p.2 < stagedSince s (qst s q)))

/-! ## States -/

/-- STATE_FETCH: the pager brings a state in, behind the page-ins of heads that wait (R287, R292). -/
def execStateFetch (q : QueueId) (s : State) : Host.Outcome State Fault Refusal :=
  .next (if headWaits s then s else fetchState q s)

/-- COLD_WRITEBACK: a state idle for cold_time is written back and stays resident, behind all the pager's other work
(R288, R292). -/
def execColdWriteback (q : QueueId) (s : State) : Host.Outcome State Fault Refusal :=
  let x := qst s q
  let first := headWaits s || fetchWaits s || s.qm.states.any (fun p => pageDue s p.2)
  .next (if ¬ first ∧ x.resident ∧ x.dirty ∧ x.lastUsed + rwField s .qcache 0 15 0 * psUs ≤ s.now then writeCopies q s
    else s)

/-! ## Pages -/

/-- A page-out of a queue, once the frames that the page cannot take are dropped; `full` asks that the staging list
still fill a page. -/
def pageOutNow (full : Bool) (q : Nat) (s : State) : State :=
  let s1 := cleanStaging q (qst s q).tail.length s
  if (qst s1 q).tail = [] ∨ (full ∧ ¬ pageFull s1 (qst s1 q)) then s1 else writePage q s1

/-- Whether a page-out of a queue is served now: behind the page-ins of heads that wait, the fetches of states and the
page-outs of older staging frames (R277, R292). -/
def pageOutServed (s : State) (q : Nat) : Bool :=
  (qst s q).resident && anyChanReady s && !headWaits s && !fetchWaits s && !olderStaged s q

/-- PAGE_OUT: a staging list that fills a page drains into one, while a Cave channel is ready (R277, R290). -/
def execPageOut (q : QueueId) (s : State) : Host.Outcome State Fault Refusal :=
  let x := qst s q
  .next (if x.tail ≠ [] ∧ pageOutServed s q ∧ pageFull s x then pageOutNow true q s else s)

/-- PAGE_FLUSH_EXPIRY: the oldest staging frame has waited page_flush_us (R290). -/
def execPageFlushExpiry (q : QueueId) (s : State) : Host.Outcome State Fault Refusal :=
  let x := qst s q
  .next (if x.tail ≠ [] ∧ pageOutServed s q ∧ stagedSince s x + rwField s .pager 0 7 0 * psUs ≤ s.now then
      pageOutNow false q s
    else s)

/-- PAGE_IN: the read of the page at head_page is issued, a head that waits before one that does not (R291, R292). -/
def execPageIn (q : QueueId) (s : State) : Host.Outcome State Fault Refusal :=
  .next (if headWaits s ∧ ¬ (qst s q).miss then s else beginPageIn false q s)

/-- PAGE_IN_DONE: a page read completes, or the page is lost (R276, R277, R291, R293). -/
def execPageInDone (q : QueueId) (read : PageRead) (s : State) : Host.Outcome State Fault Refusal :=
  .next (if (qst s q).reading then pageInFinish q.val read s else s)

/-- Whether the pager prefetches for a queue (R294): the Wheel releases its shaper within prefetch_ns, a credit grant
names it, or it is backlogged in a bundle whose port has no eligible queue. -/
def prefetchWanted (s : State) (q : Nat) : Bool :=
  let x := qst s q
  let c := qcfg s q
  let due := mget 0 s.sched.wheel q
  let backlog := decide (0 < x.depth) || s.qm.journal.any (fun j => j.1 == q)
  (decide (due ≠ 0) && decide (due ≤ s.now + rwField s .wheel 0 14 0 * 1000))
    || (c.role == 1 && !(mget {} s.fabric.voqs q).grants.isEmpty)
    || (c.role == 2 && backlog && !(portQueues s c.port).any (fun p => queueEligible s p.1 p.2))

/-- PREFETCH: state and head page ahead of a selection, behind the page-ins of heads that wait (R292, R294). -/
def execPrefetch (q : QueueId) (s : State) : Host.Outcome State Fault Refusal :=
  .next (if prefetchWanted s q ∧ (¬ headWaits s ∨ (qst s q).miss) then beginPageIn true q (fetchState q s) else s)

/-! ## Flushes and copies -/

/-- QUEUE_FLUSH_DONE: a flush ends and is recorded with the frames dropped (R132). -/
def execQueueFlushDone (q : QueueId) (s : State) : Host.Outcome State Fault Refusal :=
  let x := qst s q
  .next (if x.flushing then
      raiseAt (blockPlace .qmgr) Ev.queueFlushed q.val x.flushed (setQ q { x with flushing := false, flushed := 0 } s)
    else s)

/-- Write both copies of every listed state of a block. -/
def writeBlock (b : Nat) : List Nat → State → State
  | [], s => s
  | q :: qs, s => writeBlock b qs (if q / 65536 = b then writeCopies q s else s)

/-- Flush the states of a block that only the lost copies held (R277). -/
def loseStates (b : Nat) : List Nat → State → State
  | [], s => s
  | q :: qs, s => loseStates b qs (if q / 65536 = b ∧ ¬ (qst s q).resident then loseState q s else s)

/-- Take a pool 6 buffer of another ready channel of a side for a copy, as the pager (R257, R277). -/
def takeCopyBuffer (copy : Nat) (s : State) : Option Nat × State :=
  let rs := ((List.range 4).filter (fun i => (chan s (4 * copy + i)).ready)).map
    (fun i => (768 * (4 * copy + i), pool6Per s))
  if canClaim s 6 1 1 ∧ 0 < freeIn (takenOf s 6) rs then takeFrom rs 6 (ownerName 5 copy) s else (none, countEmpty 6 s)

/-- Rebuild one copy of a block on another channel of its side; it waits where no buffer can be had (R266, R277). -/
def rebuildCopy (b copy : Nat) (s : State) : State :=
  if copyGood s (65536 * b) copy then s
  else match takeCopyBuffer copy s with
    | (none, s1) => s1
    | (some i, s1) => { s1 with qm := { s1.qm with
        copyLost := s1.qm.copyLost.filter (fun c => c != (b, copy))
        copyPlace := mset 0 s1.qm.copyPlace (2 * b + copy) (i + 1) } }

/-- QUEUE_COPY_REBUILD: the lost copies of a block of queue states are rebuilt each on another channel of its side;
where both were lost the block's queues are flushed (R277). -/
def execQueueCopyRebuild (q : QueueId) (s : State) : Host.Outcome State Fault Refusal :=
  let b := q.val / 65536
  .next (if s.qm.copyLost.any (fun c => c.1 == b) then
      let listed := s.qm.states.map (fun p => p.1)
      let s1 := if copyGood s q 0 ∨ copyGood s q 1 then s else loseStates b listed s
      let s2 := rebuildCopy b 1 (rebuildCopy b 0 s1)
      if s2.qm.copyLost.length = s1.qm.copyLost.length then s2
      else raise .pager Ev.tableRepaired (0x40 + q.val * 2 ^ 18) (writeBlock b listed s2)
    else s)

end Sys2Proof.Machine
end

