-- ==== Sys2Proof/Machine/Update.lean ====
section
/-!
DEFINITION. Firmware update (R496 to R508): the services a T1 program asks T0 firmware for with TRAP.CALL, the serial
memory's operations, the install in the Triad, the tile cores, the time engine, handback and rollback.
-/
namespace Sys2Proof.Machine

/-- The state with the update's part replaced. -/
def setUpd (x : UpdSt) (s : State) : State := { s with upd := x }

/-- The codes of R498. -/
def UpdPhase.code : UpdPhase → Nat
  | .idle => 0 | .prepared => 1 | .shadow => 2 | .handover => 3 | .tiles => 4 | .time => 5 | .awaitConfirm => 6
  | .handback => 7

/-- A phase from PREPARED to AWAIT_CONFIRM begins (R498). -/
def enterPhase (p : UpdPhase) (s : State) : State :=
  raise .triad Ev.updateStarted p.code (setUpd { s.upd with phase := p } s)

/-! ## Refusals (R499, R508) -/

/-- Reasons 2 to 5: the first that holds, 0 for none. -/
def conditionReason (s : State) : Nat :=
  if s.triad.retired ≠ 0 ∨ s.triad.mode = .halted then 2
  else if s.scraper.current.isSome ∨ s.scraper.pending ≠ [] then 3
  else if s.sensor.railOut ≠ 0 then 4
  else if s.upd.timeServes then 5
  else 0

/-- Reasons 1 to 6, for a service whose phase must be `p`. -/
def updReason (s : State) (p : UpdPhase) : Nat :=
  if s.upd.lock.isSome then 1
  else if conditionReason s ≠ 0 then conditionReason s
  else if s.upd.phase ≠ p ∨ s.upd.op.isSome then 6
  else 0

/-- Bytes of CURRENT that its directory and its images take. -/
def slotExtent (d : SlotDir) : Nat := (d.images.map (fun i => i.2.1 + i.2.2.1)).foldl max 4096

/-- Whether the versions of R508 forbid a new one. -/
def versionForbidden (s : State) (d : SlotDir) : Bool :=
  let minor : Nat := d.version / 2 ^ 16 % 256
  let others : List Nat := (s.roll.admittedIds.filter (fun a => a.1 != ownId)).map (fun a => a.2.2)
  s.roll.admitted && (d.version / 2 ^ 24 != fwMajor s
    || decide (1 < others.foldl max minor - others.foldl min minor))

/-- Reasons 7 to 12 of UPD.INSTALL. -/
def imageReason (s : State) : Nat :=
  match slotDirOf (slotHead s 0 true) with
  | none => 7
  | some d =>
    if ¬ slotConsistent s 0 d ∨ s.upd.written < slotExtent d then 7
    else if (imgHdr (slotImage s 0 d 0)).abi ≠ (imgHdr (slotImage s 0 d 2)).abi then 8
    else if versionForbidden s d then 9
    else if s.roll.admitted ∧ ¬ (d.skovMin ≤ s.roll.systemLevel ∧ s.roll.systemLevel ≤ d.skovMax) then 10
    else if s.boot.fw.stateExport < d.stateImport ∨ d.stateExport < s.boot.fw.stateExport then 11
    else if s.upd.flashFailed then 12
    else 0

/-- UPDATE_REFUSED with a reason, which UPD.STATUS then shows. -/
def refuseUpdate (reason : Nat) (s : State) : State :=
  raise .triad Ev.updateRefused reason (setUpd { s.upd with reason := reason } s)

/-! ## The serial memory (R477, R500) -/

/-- Program bytes of CURRENT, its first four held back. -/
def programCurrent (off : Nat) (bs : List Byte) (s : State) : State :=
  let held := 4 - off
  setUpd { s.upd with magic := s.upd.magic ++ bs.take held }
    (flashProgram (slotBase 0 + off + min held bs.length) (bs.drop held) s)

/-- The slots are prepared (R500). -/
def prepareSlots (s : State) : State :=
  let s1 := if s.boot.slot ≠ 0 then s
    else flashProgram (slotBase 1) (flashRead s (slotBase 0) slotSize) (flashErase (slotBase 1) slotSize s)
  let good := s.boot.slot ≠ 0 || (match slotDir s1 1 with
    | some d => slotConsistent s1 1 d
    | none => false)
  if ¬ good then setUpd { s1.upd with flashFailed := true } s1
  else flashErase (slotBase 0) slotSize (setBoot { s1.boot with slot := if s1.boot.slot = 0 then 1 else s1.boot.slot } s1)

/-- A settings set is in the memory and reads back valid; it is the set in use where its format is the running
firmware's (R476, R477). -/
def storeSettings (half : Nat) (bs : List Byte) (s : State) : State :=
  let s1 := flashProgram (halfBase half) bs (flashErase (halfBase half) halfSize s)
  match halfSet s1 half with
  | none => s1
  | some x =>
    if s1.boot.slot < 2 ∧ x.format = s1.boot.fw.settings then
      setBoot { s1.boot with half := half, format := x.format } s1
    else s1

/-- The memory operation in progress ends (R477, R500). -/
def finishOp (ok : Bool) (s : State) : State :=
  let s1 := setUpd { s.upd with op := none } s
  match s.upd.op with
  | none => s
  | some .prepare => if ok then prepareSlots s1 else setUpd { s1.upd with flashFailed := true } s1
  | some (.program off bs) => if ok then programCurrent off bs s1 else setUpd { s1.upd with flashFailed := true } s1
  | some (.settings half bs) => if ok then storeSettings half bs s1 else flashErase (halfBase half) halfSize s1

/-- FLASH_OPERATION_DONE: the operation in progress ends, its read-back good or not (R477, R500). -/
def execFlashOperationDone (ok : Bool) (s : State) : Host.Outcome State Fault Refusal := .next (finishOp ok s)

/-! ## The services (R498) -/

/-- A service's call: the trap of TRAP.CALL, T0 firmware's answer in k3, and the return behind the call. A T2 caller is
refused; in T0 the instruction is illegal. -/
def updCall (sel : BitVec 10) (op : State → Word64 × State) (s : State) : State :=
  let e : EngineId := ⟨0, by decide⟩
  runInstr e (fun s =>
    let tier := tierOf s e
    if tier = 0 then trapHere e causeIllegal ((encSys 2 0 0 sel).setWidth 64) s
    else
      let s1 := takeTrap e causeCall (sel.setWidth 64) ((engine s e).pc + 4) s
      if (engine s1 e).run = .halted then s1
      else
        let r := if tier = 2 then (result rRefused 0, s1) else op s1
        if r.2.boot.inReset then r.2 else returnFromTrap e (kset e ⟨3, by decide⟩ r.1 r.2)) s

/-- Argument register k of the Triad. -/
def updArg (s : State) (k : Fin 32) : Nat := (kget s ⟨0, by decide⟩ k).toNat

/-- UPD.LOCK (R498). -/
def execUpdLock (s : State) : Host.Outcome State Fault Refusal :=
  .next (updCall 0x100 (fun s =>
    let o := ownerOf s eTriad
    if s.upd.lock.getD o = o then (result rOk 0, setUpd { s.upd with lock := some o } s) else (result rBusy 0, s)) s)

/-- UPD.UNLOCK (R498). -/
def execUpdUnlock (s : State) : Host.Outcome State Fault Refusal :=
  .next (updCall 0x101 (fun s =>
    if s.upd.lock = some (ownerOf s eTriad) then (result rOk 0, setUpd { s.upd with lock := none } s)
    else (result rNotOwner 0, s)) s)

/-- UPD.BEGIN (R498 to R500). -/
def execUpdBegin (s : State) : Host.Outcome State Fault Refusal :=
  .next (updCall 0x102 (fun s =>
    match updReason s .idle with
    | 0 => (result rPending 0, enterPhase .prepared (setUpd { s.upd with
        op := some .prepare
        written := 0
        magic := []
        flashFailed := false
        chan := none
        imported := false
        checkAt := 0
        nextCore := 0
        coreFailed := false } s))
    | r => (result rRefused r, refuseUpdate r s)) s)

/-- UPD.WRITE (R498, R500). -/
def execUpdWrite (s : State) : Host.Outcome State Fault Refusal :=
  .next (updCall 0x103 (fun s =>
    let off := updArg s 3
    let h := updArg s 4
    let len := updArg s 5
    let pool := hPool h
    if s.upd.phase ≠ .prepared then (result rRefused 6, setUpd { s.upd with reason := 6 } s)
    else if s.upd.op.isSome then (result rBusy 0, s)
    else if 2 ^ 32 ≤ h ∨ pool = 0 ∨ 4 < pool ∨ ¬ inStorage s pool (hIdx h) ∨ 65536 ≤ len ∨ bufSize pool < len
        ∨ off ≠ s.upd.written ∨ slotSize < off + len then (result rRange 0, s)
    else if ¬ holdsBuffer s (ownerOf s eTriad) h then (result rNotHeld 0, s)
    else if len = 0 then (result rNone 0, s)
    else (result rPending 0, setUpd { s.upd with
      op := some (.program off (memRead s.press.scratch (hIdx h * bufSize pool) len))
      written := off + len } s)) s)

/-- The highest-numbered voting channel (R501). -/
def channelU (s : State) : Nat := if bitOf s.triad.inVote 2 then 2 else if bitOf s.triad.inVote 1 then 1 else 0

/-- UPD.INSTALL passes: CURRENT's magic is programmed, and channel u leaves the vote and runs in shadow (R500, R501). -/
def install (s : State) : State :=
  let u := channelU s
  let s1 := flashProgram (slotBase 0) s.upd.magic s
  enterPhase .shadow (setUpd { s1.upd with
      chan := some u
      imported := false
      checkAt := 0 }
    { s1 with triad := { s1.triad with mode := .duplex, inVote := s1.triad.inVote - 2 ^ u } })

/-- UPD.INSTALL (R497 to R501). -/
def execUpdInstall (s : State) : Host.Outcome State Fault Refusal :=
  .next (updCall 0x104 (fun s =>
    match updReason s .prepared with
    | 0 => (match imageReason s with
      | 0 => (result rPending 0, install s)
      | r => (result rRefused r, refuseUpdate r (invalidateCurrent (setUpd { s.upd with phase := .idle } s))))
    | r => (result rRefused r, refuseUpdate r s)) s)

/-- UPD.CONFIRM (R506). -/
def execUpdConfirm (s : State) : Host.Outcome State Fault Refusal :=
  .next (updCall 0x105 (fun s =>
    if s.upd.phase = .awaitConfirm then
      (result rOk 0, raise .triad Ev.updateConfirmed s.boot.fw.version (setUpd { s.upd with phase := .idle } s))
    else (result rRefused 6, setUpd { s.upd with reason := 6 } s)) s)

/-- The unit hands back: its outputs are held until HANDBACK (R502). -/
def startHandback (s : State) : State :=
  { s with
    triad := { s.triad with faultHeld := faultLow s }
    upd := { s.upd with phase := .handback } }

/-- UPD.ROLLBACK (R507). -/
def execUpdRollback (s : State) : Host.Outcome State Fault Refusal :=
  .next (updCall 0x106 (fun s =>
    match s.upd.phase with
    | .idle => (result rRefused 6, setUpd { s.upd with reason := 6 } s)
    | .handback => (result rPending 0, s)
    | .prepared =>
      let s1 := invalidateCurrent (finishOp true s)
      (result rPending 0, setUpd { s1.upd with phase := .idle } s1)
    | .shadow => (result rPending 0, startHandback (invalidateCurrent s))
    | _ => (result rPending 0, resetUnit (invalidateCurrent s))) s)

/-- UPD.STATUS's value (R498). -/
def updStatus (s : State) : Nat :=
  s.upd.phase.code + b2n s.upd.lock.isSome * 2 ^ 4 + b2n s.upd.op.isSome * 2 ^ 5 + s.boot.slot % 4 * 2 ^ 6
    + s.upd.reason % 256 * 2 ^ 8 + (match slotDir s 0 with
      | some d => d.version
      | none => 0) * 2 ^ 16

/-- UPD.STATUS (R498). -/
def execUpdStatus (s : State) : Host.Outcome State Fault Refusal :=
  .next (updCall 0x107 (fun s => (result rOk (updStatus s), s)) s)

/-! ## Shadow, handover and handback (R501 to R504) -/

/-- The new image applies nothing, and the unit hands back (R502). -/
def settingsUnreadable (cause : Nat) (s : State) : State :=
  startHandback (raise .triad Ev.updateSettingsUnreadable cause s)

/-- Channel u converts the set in use where the new format differs, and the result goes to the other half (R502). -/
def convertSettings (converted : List Byte) (s : State) : Option State :=
  let new := ((slotDir s 0).map (fun d => d.settings)).getD 0
  if new = s.boot.format then some s
  else
    let half := 1 - s.boot.half
    let seq := ((setInUse s).map (fun x => x.seq + 1)).getD 0
    let s1 := flashProgram (halfBase half) (sealSet seq (converted.take halfSize)) (flashErase (halfBase half) halfSize s)
    match halfSet s1 half with
    | some x => if x.format = new then some s1 else none
    | none => none

/-- SETTINGS_IMPORT: channel u's first run ends: outcome 0, or a cause of R502. `converted` is the set that the new
image makes of the set in use. -/
def execSettingsImport (outcome : Fin 6) (converted : List Byte) (s : State) : Host.Outcome State Fault Refusal :=
  .next (if s.upd.phase ≠ .shadow ∨ s.upd.imported then s
    else if outcome.val ≠ 0 then settingsUnreadable outcome.val s
    else if (setInUse s).isNone then settingsUnreadable 1 s
    else match convertSettings converted s with
      | none => settingsUnreadable 4 s
      | some s1 => setUpd { s1.upd with imported := true } s1)

/-- HANDOVER_CHECK: reasons 2 to 5 are checked again; the hold begins, or after 10 s the unit hands back (R503). -/
def execHandoverCheck (s : State) : Host.Outcome State Fault Refusal :=
  .next (if s.upd.phase ≠ .shadow ∨ ¬ s.upd.imported then s
    else match conditionReason s with
      | 0 => enterPhase .handover { s with triad := { s.triad with faultHeld := faultLow s } }
      | r =>
        if s.upd.checkAt = 0 then setUpd { s.upd with checkAt := s.now + 1 } s
        else if s.upd.checkAt - 1 + 10 * psSec ≤ s.now then startHandback (refuseUpdate r s)
        else s)

/-- Free values for the general registers of a list. -/
def freeRegs : List Nat → State → SMap Word64 → SMap Word64 × State
  | [], s, m => (m, s)
  | i :: is, s, m =>
    let d := freeDraw s
    freeRegs is d.2 (mset 0 m i d.1)

/-- The three channels resume on the new image: where its program stands, and what its registers hold, is not stated. -/
def resumeImage (bs : List Byte) (s : State) : State :=
  let r := freeRegs ((List.range 31).map (fun i => i + 1)) s []
  let d := freeDraw r.2
  setEngine eTriad {
    gpr := r.1
    mem := imageMemory 0 bs
    pc := d.1
    run := .running
    leftReset := d.2.now } d.2

/-- HANDOVER: the hold ends and all three channels run the new image; a disagreement is evaluated first (R503, R504). -/
def execHandover (agree : Bool) (s : State) : Host.Outcome State Fault Refusal :=
  .next (if s.upd.phase ≠ .handover then s
    else if ¬ agree then triadHalt 1 s
    else match slotDir s 0 with
      | none => triadHalt 1 s
      | some d =>
        let s1 := resumeImage (slotImage s 0 d 0) { s with triad := { s.triad with mode := .triplex, inVote := 7 } }
        let s2 := setBoot { s1.boot with
          slot := 0
          fw := d
          half := (halfOfFormat s d.settings).elim s1.boot.half (fun h => h.1)
          format := (halfOfFormat s d.settings).elim 0 (fun _ => d.settings) } s1
        enterPhase .tiles (setUpd { s2.upd with chan := none, imported := false, nextCore := 0, coreFailed := false } s2))

/-- HANDBACK: the old image runs in all three channels again; where PREVIOUS fails its CRC-32C or the copy disagrees,
the unit reboots (R502). -/
def execHandback (ok : Bool) (s : State) : Host.Outcome State Fault Refusal :=
  .next (if s.upd.phase ≠ .handback then s
    else
      let good : Bool := match slotDir s 1 with
        | some d => slotImageOk s 1 d 0
        | none => false
      if good ∧ ok then
        invalidateCurrent { s with
          triad := { s.triad with mode := .triplex, inVote := 7 }
          upd := { s.upd with phase := .idle, chan := none, imported := false } }
      else resetUnit (invalidateCurrent (raise .triad Ev.updateHandbackFailed (b2n good) s)))

/-! ## Tile cores and the time engine (R505) -/

/-- The time engine is stopped for its reload. -/
def stopTime (s : State) : State :=
  enterTime .holdover (setEngine eTime { engine s eTime with run := .held } s)

/-- The image of CURRENT of a kind. -/
def currentImage (s : State) (kind : Nat) : List Byte :=
  match slotDir s 0 with
  | some d => slotImage s 0 d kind
  | none => []

/-- Whether the Triad restarts an engine that a double fault has halted: the Triad runs, no update holds it or reloads
cores, and the engine's domain is on (R86, R505). -/
def mayRestart (s : State) (e d : Nat) : Bool :=
  (engine s e).run == .halted && domainOn s d && s.triad.mode != .halted && !triadStalled s
    && ((engine s eTriad).run == .running || (engine s eTriad).run == .waiting)
    && s.upd.phase != .tiles && s.upd.phase != .time

/-- A halted engine starts the running slot's image again where it passes its CRC-32C; else it stays halted (R86). -/
def restartEngine (e kind : Nat) (ok : Bool) (s : State) : State :=
  match slotDir s s.boot.slot with
  | none => s
  | some d => if ok then loadEngine e kind (slotImage s s.boot.slot d kind) s else s

/-- TILE_CORE_RELOAD: in an update the next core is stopped and reloaded, core A then core B of each tile; one that fails
twice stays stopped, and so does the update (R361, R505). Else the Triad restarts a halted core (R86). -/
def execTileCoreReload (t : Fin 8) (b : Fin 2) (ok : Bool) (s : State) : Host.Outcome State Fault Refusal :=
  let e := eTile t.val b.val
  .next (if mayRestart s e (22 + t.val) then
      wakeLanes (coreLanes t.val b.val) (restartEngine e 2 ok (settleCores (coreLanes t.val b.val) s))
    else if s.upd.phase ≠ .tiles ∨ s.upd.nextCore ≠ 2 * t.val + b.val then s
    else
      let next := fun (s : State) =>
        let s1 := setUpd { s.upd with nextCore := s.upd.nextCore + 1, coreFailed := false } s
        if s1.upd.nextCore = 16 then stopTime (enterPhase .time s1) else s1
      if ¬ domainOn s (22 + t.val) then next s
      else
        let s1 := settleCores (coreLanes t.val b.val) (setEngine e { engine s e with run := .held } s)
        if ok then next (wakeLanes (coreLanes t.val b.val) (loadEngine e 2 (currentImage s1 2) s1))
        else if s1.upd.coreFailed then
          raiseAt (blockPlace (.tcore t.val b.val)) Ev.tileCoreHalt (0xFF + t.val * 2 ^ 8 + b.val * 2 ^ 11) 0
            (setUpd { s1.upd with nextCore := 255 } s1)
        else setUpd { s1.upd with coreFailed := true } s1)

/-- TIME_ENGINE_RELOAD: in an update the time engine starts its new image, or after a second failure stays stopped
(R505). Else the Triad restarts a halted time engine core (R86). -/
def execTimeEngineReload (ok : Bool) (s : State) : Host.Outcome State Fault Refusal :=
  .next (if mayRestart s eTime 2 then restartEngine eTime 1 ok s
    else if s.upd.phase ≠ .time ∨ s.upd.nextCore ≠ 16 then s
    else if ok then enterPhase .awaitConfirm (loadEngine eTime 1 (currentImage s 1) s)
    else if s.upd.coreFailed then
      raiseAt (blockPlace .time) Ev.timeCoreHalt 0xFF 0 (setUpd { s.upd with nextCore := 255 } s)
    else setUpd { s.upd with coreFailed := true } s)

end Sys2Proof.Machine
end

