-- ==== Sys2Proof/Machine/VatInstr.lean ====
section
/-!
DEFINITION. The VAT group (R130, R131, R258 to R266): each instruction acts under KC_OWNER in the control class.
-/
namespace Sys2Proof.Machine

/-- Whether a VAT instruction may act under an owner name (R257). -/
def vatOwnerOk (o : Nat) : Bool := 1 ≤ ownerKind o && ownerKind o ≤ 0xA

/-- The result of a request the Vat discards because its name is declared: the spec states none (R271). -/
def discarded (s : State) : DevOut :=
  .done (freeDraw s).1 (countDeclaredDrop (freeDraw s).2)

/-- The smallest of pools 1 to 4 whose buffer holds n bytes (R264). -/
def poolFor (n : Nat) : Nat := if n ≤ 128 then 1 else if n ≤ 1024 then 2 else if n ≤ 8192 then 3 else 4

/-- The result of a claim of one buffer. -/
def claimResult (pool : Nat) (r : Option (List Nat) × State) : DevOut :=
  match r with
  | (some (i :: _), s) => .done (result rOk (handle pool i)) s
  | (_, s) => .done (result rEmpty 0) s

/-- VAT.ALLOC: the smallest pool that fits, passing once to the next when spill is enabled (R264). -/
def vatAllocOp (o size : Nat) (s : State) : DevOut :=
  let p := poolFor size
  if canClaim s p 4 1 ∨ p = 4 ∨ rwlField s .vat 0 (p - 1) (p - 1) = 0 then claimResult p (claimAs 4 p o 1 s)
  else
    let s1 := perfEvent { code := 0x022, master := ownerMaster o }
      { s with vat := { s.vat with spills := (s.vat.spills + 1) % 2 ^ 32 } }
    claimResult (p + 1) (claimAs 4 (p + 1) o 1 s1)

/-- VAT.ALLOC kd, ka (R130, R264). -/
def execVatAlloc (e : EngineId) (kd ka : KReg) (s : State) : Host.Outcome State Fault Refusal :=
  .next (runDev e .vat (encDev 0x26 0 kd ka 0 0) kd (fun s =>
    let size := (kget s e ka).toNat
    if 65536 < size ∨ ¬ vatOwnerOk (ownerOf s e) then .done (result rRange 0) s
    else if size = 0 then .done (result rNone 0) s
    else if isDeclared s (ownerOf s e) then discarded s
    else vatAllocOp (ownerOf s e) size s) s)

/-- VAT.ALLOC.P kd, ka: one buffer of a named pool, without spill (R130, R264). -/
def execVatAllocP (e : EngineId) (kd ka : KReg) (s : State) : Host.Outcome State Fault Refusal :=
  .next (runDev e .vat (encDev 0x26 1 kd ka 0 0) kd (fun s =>
    let p := (kget s e ka).toNat
    if 7 < p ∨ ¬ vatOwnerOk (ownerOf s e) then .done (result rRange 0) s
    else if isDeclared s (ownerOf s e) then discarded s
    else claimResult p (claimAs 4 p (ownerOf s e) 1 s)) s)

/-- Whether a handle operand names a buffer of its pool's storage (R123, R252). -/
def handleOk (s : State) (v : Nat) : Bool := v < 2 ^ 32 && inStorage s (hPool v) (hIdx v)

/-- An owner gives one of its hold-table holds of a buffer back. -/
def endListedHold (o h : Nat) (s : State) : State :=
  endOneHold h { s with vat := { s.vat with holdTable := holdTableTake (govern s h) o 1 s.vat.holdTable } }

/-- VAT.FREE of a handle by an owner (R131): the last owner's own hold, or, once that has ended and its name stands in
the record still, one of the holds the hold table lists for it (notes/assumptions 139). -/
def vatFreeOp (o h : Nat) (s : State) : DevOut :=
  match recordOf s h with
  | none => .done (result rNotHeld 0) s
  | some r =>
    if ¬ holdsBuffer s o h then .done (result rNotHeld 0) s
    else if effOwner s r.owner ≠ o then
      .done (result rNotOwner 0) (raiseAt (blockPlace .vat) Ev.freeByNonowner h o s)
    else if r.ended then .done (result rOk 0) (endListedHold o h s)
    else .done (result rOk 0) (endOwnerHold h s)

/-- VAT.FREE kd, ka (R130, R131); a buffer whose record is damaged answers OK and stays out (R435). -/
def execVatFree (e : EngineId) (kd ka : KReg) (s : State) : Host.Outcome State Fault Refusal :=
  .next (runDev e .vat (encDev 0x26 2 kd ka 0 0) kd (fun s =>
    let h := (kget s e ka).toNat
    if ¬ handleOk s h ∨ ¬ vatOwnerOk (ownerOf s e) then .done (result rRange 0) s
    else if isDeclared s (ownerOf s e) then discarded s
    else if s.vat.badRecords.contains h then .done (result rOk 0) s
    else vatFreeOp (ownerOf s e) h s) s)

/-- VAT.RELEASE of a handle by an owner (R131). -/
def vatReleaseOp (o h : Nat) (s : State) : DevOut :=
  match recordOf s h with
  | none => .done (result rNotHeld 0) s
  | some r =>
    if ¬ holdsBuffer s o h then .done (result rNotHeld 0) s
    else if effOwner s r.owner = o then .done (result rIsLastOwner 0) s
    else .done (result rOk 0) (endListedHold o h s)

/-- VAT.RELEASE kd, ka (R130, R131, R435). -/
def execVatRelease (e : EngineId) (kd ka : KReg) (s : State) : Host.Outcome State Fault Refusal :=
  .next (runDev e .vat (encDev 0x26 3 kd ka 0 0) kd (fun s =>
    let h := (kget s e ka).toNat
    if ¬ handleOk s h ∨ ¬ vatOwnerOk (ownerOf s e) then .done (result rRange 0) s
    else if isDeclared s (ownerOf s e) then discarded s
    else if s.vat.badRecords.contains h then .done (result rOk 0) s
    else vatReleaseOp (ownerOf s e) h s) s)

/-- VAT.SHARE: n sharer holds attributed to the last owner, then the new last owner's name (R259). A named last owner
whose own hold has ended has none to pass: NOT_OWNER (notes/assumptions 139). -/
def vatShareOp (a h n o : Nat) (s : State) : DevOut :=
  match recordOf s h with
  | none => .done (result rNotOwner 0) s
  | some r =>
    let g := govern s h
    let listed := s.vat.holdTable.any (fun t => t.1 == g && t.2.1 == a)
    if ¬ ownsRecord s a r then .done (result rNotOwner 0) s
    else if 65535 < r.holds + n ∨ (¬ listed ∧ 65536 ≤ s.vat.holdTable.length) then .done (result rFull 0) s
    else .done (result rOk 0) { s with vat := { s.vat with
      held := mput s.vat.held g { r with owner := o, holds := r.holds + n }
      holdTable := holdTableAdd g a n s.vat.holdTable } }

/-- VAT.SHARE kd, ka, kb, kc (R130, R259). -/
def execVatShare (e : EngineId) (kd ka kb kc : KReg) (s : State) : Host.Outcome State Fault Refusal :=
  .next (runDev e .vat (encDev 0x26 4 kd ka kb kc) kd (fun s =>
    let h := (kget s e ka).toNat
    let n := (kget s e kb).toNat
    let o := (kget s e kc).toNat
    if ¬ handleOk s h ∨ 65535 < n ∨ 2 ^ 32 ≤ o ∨ ¬ vatOwnerOk o ∨ ¬ vatOwnerOk (ownerOf s e) then
      .done (result rRange 0) s
    else if n = 0 then .done (result rNone 0) s
    else if isDeclared s (ownerOf s e) then discarded s
    else vatShareOp (ownerOf s e) h n o s) s)

end Sys2Proof.Machine
end

