-- ==== Sys2Proof/Machine/Dispatch.lean ====
section
/-!
DEFINITION. One arm per command: the meaning it has.
-/
namespace Sys2Proof.Machine

def exec (i : Instr) (s : State) : Host.Outcome State Fault Refusal :=
  match i with
  | .frameReceive port bytes fault corrected => Sys2Proof.Machine.execFrameReceive port bytes fault corrected s
  | .ingressSequence pipe flip => Sys2Proof.Machine.execIngressSequence pipe flip s
  | .enqueue flip => Sys2Proof.Machine.execEnqueue flip s
  | .stateFetch q => Sys2Proof.Machine.execStateFetch q s
  | .coldWriteback q => Sys2Proof.Machine.execColdWriteback q s
  | .pageOut q => Sys2Proof.Machine.execPageOut q s
  | .pageFlushExpiry q => Sys2Proof.Machine.execPageFlushExpiry q s
  | .pageIn q => Sys2Proof.Machine.execPageIn q s
  | .pageInDone q read => Sys2Proof.Machine.execPageInDone q read s
  | .prefetch q => Sys2Proof.Machine.execPrefetch q s
  | .egressSelection pipe flip => Sys2Proof.Machine.execEgressSelection pipe flip s
  | .epochDrainExpiry q => Sys2Proof.Machine.execEpochDrainExpiry q s
  | .wheelRelease shaper => Sys2Proof.Machine.execWheelRelease shaper s
  | .gateEntryAdvance port => Sys2Proof.Machine.execGateEntryAdvance port s
  | .gateListStart port => Sys2Proof.Machine.execGateListStart port s
  | .pauseStopExpiry port prio => Sys2Proof.Machine.execPauseStopExpiry port prio s
  | .egressSequence pipe flip => Sys2Proof.Machine.execEgressSequence pipe flip s
  | .frameTransmit port => Sys2Proof.Machine.execFrameTransmit port s
  | .pauseRefresh port => Sys2Proof.Machine.execPauseRefresh port s
  | .lpiIdleExpiry port => Sys2Proof.Machine.execLpiIdleExpiry port s
  | .fabricSend q => Sys2Proof.Machine.execFabricSend q s
  | .cellReceive link bytes msg flip => Sys2Proof.Machine.execCellReceive link bytes msg flip s
  | .linkCellEmit link flip => Sys2Proof.Machine.execLinkCellEmit link flip s
  | .linkNoCellTimeout link => Sys2Proof.Machine.execLinkNoCellTimeout link s
  | .requestSend q => Sys2Proof.Machine.execRequestSend q s
  | .grantIssue q => Sys2Proof.Machine.execGrantIssue q s
  | .leaseExpiry unit grant => Sys2Proof.Machine.execLeaseExpiry unit grant s
  | .grantAgeExpiry q => Sys2Proof.Machine.execGrantAgeExpiry q s
  | .assemblyTimeout unit tag => Sys2Proof.Machine.execAssemblyTimeout unit tag s
  | .reorderHoldExpiry unit q => Sys2Proof.Machine.execReorderHoldExpiry unit q s
  | .rollAnnounce => Sys2Proof.Machine.execRollAnnounce s
  | .joinRequest => Sys2Proof.Machine.execJoinRequest s
  | .joinRetry => Sys2Proof.Machine.execJoinRetry s
  | .beatSend => Sys2Proof.Machine.execBeatSend s
  | .unitLossTimeout unit => Sys2Proof.Machine.execUnitLossTimeout unit s
  | .signalDetect lane => Sys2Proof.Machine.execSignalDetect lane s
  | .trainingFrameReceive lane frame => Sys2Proof.Machine.execTrainingFrameReceive lane frame s
  | .receiverReady lane => Sys2Proof.Machine.execReceiverReady lane s
  | .trainingTimeout lane => Sys2Proof.Machine.execTrainingTimeout lane s
  | .attemptLimitExpiry lane => Sys2Proof.Machine.execAttemptLimitExpiry lane s
  | .fecLock n => Sys2Proof.Machine.execFecLock n s
  | .fecLockWaitExpiry n skew => Sys2Proof.Machine.execFecLockWaitExpiry n skew s
  | .fecLockLoss n => Sys2Proof.Machine.execFecLockLoss n s
  | .backoffEnd lane => Sys2Proof.Machine.execBackoffEnd lane s
  | .laneLossOfSignal lane => Sys2Proof.Machine.execLaneLossOfSignal lane s
  | .adaptationUpdate lane => Sys2Proof.Machine.execAdaptationUpdate lane s
  | .eyeUpdate lane eye => Sys2Proof.Machine.execEyeUpdate lane eye s
  | .tilePllLoss t => Sys2Proof.Machine.execTilePllLoss t s
  | .restIdleExpiry n => Sys2Proof.Machine.execRestIdleExpiry n s
  | .restRefresh n => Sys2Proof.Machine.execRestRefresh n s
  | .restWake n => Sys2Proof.Machine.execRestWake n s
  | .refreshTimeout n => Sys2Proof.Machine.execRefreshTimeout n s
  | .wakeEnd n cdr => Sys2Proof.Machine.execWakeEnd n cdr s
  | .laneTestWrite lane val src => Sys2Proof.Machine.execLaneTestWrite lane val src s
  | .secondBoundary freqA freqB freqC servo => Sys2Proof.Machine.execSecondBoundary freqA freqB freqC servo s
  | .ppsEdge ch inTime => Sys2Proof.Machine.execPpsEdge ch inTime s
  | .scheduledAction handle => Sys2Proof.Machine.execScheduledAction handle s
  | .slewComplete => Sys2Proof.Machine.execSlewComplete s
  | .ptpParentLoss => Sys2Proof.Machine.execPtpParentLoss s
  | .refCapAck ch src => Sys2Proof.Machine.execRefCapAck ch src s
  | .tsqPop pipe src => Sys2Proof.Machine.execTsqPop pipe src s
  | .learnApply => Sys2Proof.Machine.execLearnApply s
  | .turnerVisit bank bucket way => Sys2Proof.Machine.execTurnerVisit bank bucket way s
  | .l2Flush word src => Sys2Proof.Machine.execL2Flush word src s
  | .l2FlushDone => Sys2Proof.Machine.execL2FlushDone s
  | .rehashDone bank => Sys2Proof.Machine.execRehashDone bank s
  | .placement d => Sys2Proof.Machine.execPlacement d s
  | .routeScrub slice row mismatch => Sys2Proof.Machine.execRouteScrub slice row mismatch s
  | .fragExpiry bucket way => Sys2Proof.Machine.execFragExpiry bucket way s
  | .caveChannelFail c => Sys2Proof.Machine.execCaveChannelFail c s
  | .caveChannelReady c => Sys2Proof.Machine.execCaveChannelReady c s
  | .queueCopyRebuild q => Sys2Proof.Machine.execQueueCopyRebuild q s
  | .queueFlushDone q => Sys2Proof.Machine.execQueueFlushDone q s
  | .stageOpen => Sys2Proof.Machine.execStageOpen s
  | .commitEffect => Sys2Proof.Machine.execCommitEffect s
  | .commitAtTime => Sys2Proof.Machine.execCommitAtTime s
  | .pipeCutover p => Sys2Proof.Machine.execPipeCutover p s
  | .add e kd ka kb => Sys2Proof.Machine.execAdd e kd ka kb s
  | .sub e kd ka kb => Sys2Proof.Machine.execSub e kd ka kb s
  | .and e kd ka kb => Sys2Proof.Machine.execAnd e kd ka kb s
  | .or e kd ka kb => Sys2Proof.Machine.execOr e kd ka kb s
  | .xor e kd ka kb => Sys2Proof.Machine.execXor e kd ka kb s
  | .shl e kd ka kb => Sys2Proof.Machine.execShl e kd ka kb s
  | .shr e kd ka kb => Sys2Proof.Machine.execShr e kd ka kb s
  | .sar e kd ka kb => Sys2Proof.Machine.execSar e kd ka kb s
  | .slt e kd ka kb => Sys2Proof.Machine.execSlt e kd ka kb s
  | .sltu e kd ka kb => Sys2Proof.Machine.execSltu e kd ka kb s
  | .mul e kd ka kb => Sys2Proof.Machine.execMul e kd ka kb s
  | .mulhu e kd ka kb => Sys2Proof.Machine.execMulhu e kd ka kb s
  | .divu e kd ka kb => Sys2Proof.Machine.execDivu e kd ka kb s
  | .remu e kd ka kb => Sys2Proof.Machine.execRemu e kd ka kb s
  | .div e kd ka kb => Sys2Proof.Machine.execDiv e kd ka kb s
  | .rem e kd ka kb => Sys2Proof.Machine.execRem e kd ka kb s
  | .popc e kd ka => Sys2Proof.Machine.execPopc e kd ka s
  | .clz e kd ka => Sys2Proof.Machine.execClz e kd ka s
  | .ctz e kd ka => Sys2Proof.Machine.execCtz e kd ka s
  | .bswap e kd ka => Sys2Proof.Machine.execBswap e kd ka s
  | .crc32c e kd ka kb => Sys2Proof.Machine.execCrc32c e kd ka kb s
  | .addi e kd ka imm => Sys2Proof.Machine.execAddi e kd ka imm s
  | .andi e kd ka imm => Sys2Proof.Machine.execAndi e kd ka imm s
  | .ori e kd ka imm => Sys2Proof.Machine.execOri e kd ka imm s
  | .xori e kd ka imm => Sys2Proof.Machine.execXori e kd ka imm s
  | .shi e kd ka imm => Sys2Proof.Machine.execShi e kd ka imm s
  | .lui e kd imm => Sys2Proof.Machine.execLui e kd imm s
  | .ldB e kd ka off => Sys2Proof.Machine.execLdB e kd ka off s
  | .ldH e kd ka off => Sys2Proof.Machine.execLdH e kd ka off s
  | .ldW e kd ka off => Sys2Proof.Machine.execLdW e kd ka off s
  | .ldD e kd ka off => Sys2Proof.Machine.execLdD e kd ka off s
  | .ldBs e kd ka off => Sys2Proof.Machine.execLdBs e kd ka off s
  | .ldHs e kd ka off => Sys2Proof.Machine.execLdHs e kd ka off s
  | .ldWs e kd ka off => Sys2Proof.Machine.execLdWs e kd ka off s
  | .stB e kd ka off vote => Sys2Proof.Machine.execStB e kd ka off vote s
  | .stH e kd ka off vote => Sys2Proof.Machine.execStH e kd ka off vote s
  | .stW e kd ka off vote => Sys2Proof.Machine.execStW e kd ka off vote s
  | .stD e kd ka off vote => Sys2Proof.Machine.execStD e kd ka off vote s
  | .beq e ka kb off => Sys2Proof.Machine.execBeq e ka kb off s
  | .bne e ka kb off => Sys2Proof.Machine.execBne e ka kb off s
  | .blt e ka kb off => Sys2Proof.Machine.execBlt e ka kb off s
  | .bge e ka kb off => Sys2Proof.Machine.execBge e ka kb off s
  | .bltu e ka kb off => Sys2Proof.Machine.execBltu e ka kb off s
  | .bgeu e ka kb off => Sys2Proof.Machine.execBgeu e ka kb off s
  | .jal e off => Sys2Proof.Machine.execJal e off s
  | .jalr e kd ka imm => Sys2Proof.Machine.execJalr e kd ka imm s
  | .csrRd e kd sel => Sys2Proof.Machine.execCsrRd e kd sel s
  | .csrWr e ka sel => Sys2Proof.Machine.execCsrWr e ka sel s
  | .trapCall e sel => Sys2Proof.Machine.execTrapCall e sel s
  | .trapRet e => Sys2Proof.Machine.execTrapRet e s
  | .wait e => Sys2Proof.Machine.execWait e s
  | .interruptTaken e => Sys2Proof.Machine.execInterruptTaken e s
  | .ldc e kd ka off vote => Sys2Proof.Machine.execLdc e kd ka off vote s
  | .stc e kd ka off vote => Sys2Proof.Machine.execStc e kd ka off vote s
  | .copy e ka kb kc => Sys2Proof.Machine.execCopy e ka kb kc s
  | .tblWr e kd ka kb => Sys2Proof.Machine.execTblWr e kd ka kb s
  | .tblRd e kd ka kb kc => Sys2Proof.Machine.execTblRd e kd ka kb kc s
  | .tblIns e kd ka kb => Sys2Proof.Machine.execTblIns e kd ka kb s
  | .tblDel e kd ka kb => Sys2Proof.Machine.execTblDel e kd ka kb s
  | .tblFind e kd ka kb kc => Sys2Proof.Machine.execTblFind e kd ka kb kc s
  | .tblProg e kd ka kb kc => Sys2Proof.Machine.execTblProg e kd ka kb kc s
  | .rehash e kd ka kb => Sys2Proof.Machine.execRehash e kd ka kb s
  | .vatAlloc e kd ka => Sys2Proof.Machine.execVatAlloc e kd ka s
  | .vatAllocP e kd ka => Sys2Proof.Machine.execVatAllocP e kd ka s
  | .vatFree e kd ka => Sys2Proof.Machine.execVatFree e kd ka s
  | .vatRelease e kd ka => Sys2Proof.Machine.execVatRelease e kd ka s
  | .vatShare e kd ka kb kc => Sys2Proof.Machine.execVatShare e kd ka kb kc s
  | .qEnq e kd ka kb => Sys2Proof.Machine.execQEnq e kd ka kb s
  | .qRead e kd ka kb => Sys2Proof.Machine.execQRead e kd ka kb s
  | .qFlush e kd ka => Sys2Proof.Machine.execQFlush e kd ka s
  | .qPin e kd ka => Sys2Proof.Machine.execQPin e kd ka s
  | .qUnpin e kd ka => Sys2Proof.Machine.execQUnpin e kd ka s
  | .qLock e kd ka => Sys2Proof.Machine.execQLock e kd ka s
  | .qUnlock e kd ka => Sys2Proof.Machine.execQUnlock e kd ka s
  | .timeRd e kd ka => Sys2Proof.Machine.execTimeRd e kd ka s
  | .timeRdn e kd => Sys2Proof.Machine.execTimeRdn e kd s
  | .timeSet e kd ka => Sys2Proof.Machine.execTimeSet e kd ka s
  | .timeStep e kd ka => Sys2Proof.Machine.execTimeStep e kd ka s
  | .timeSlew e kd ka kb => Sys2Proof.Machine.execTimeSlew e kd ka kb s
  | .timeAt e kd ka kb kc => Sys2Proof.Machine.execTimeAt e kd ka kb kc s
  | .timeCancel e kd ka => Sys2Proof.Machine.execTimeCancel e kd ka s
  | .epochStage e kd => Sys2Proof.Machine.execEpochStage e kd s
  | .epochCommit e kd => Sys2Proof.Machine.execEpochCommit e kd s
  | .epochCommitAt e kd ka => Sys2Proof.Machine.execEpochCommitAt e kd ka s
  | .epochCancel e kd => Sys2Proof.Machine.execEpochCancel e kd s
  | .epochStatus e kd => Sys2Proof.Machine.execEpochStatus e kd s
  | .ctrFreeze e kd ka => Sys2Proof.Machine.execCtrFreeze e kd ka s
  | .ctrSnap e kd => Sys2Proof.Machine.execCtrSnap e kd s
  | .ctrRd e kd ka => Sys2Proof.Machine.execCtrRd e kd ka s
  | .ctrOvf e kd ka => Sys2Proof.Machine.execCtrOvf e kd ka s
  | .ctrWr e kd ka kb => Sys2Proof.Machine.execCtrWr e kd ka kb s
  | .faultRaise e kd ka => Sys2Proof.Machine.execFaultRaise e kd ka s
  | .faultDeclare e kd ka => Sys2Proof.Machine.execFaultDeclare e kd ka s
  | .auditRun e kd ka => Sys2Proof.Machine.execAuditRun e kd ka s
  | .auditDone found => Sys2Proof.Machine.execAuditDone found s
  | .tableRepair handle outcome => Sys2Proof.Machine.execTableRepair handle outcome s
  | .vatWordRebuild pool index part => Sys2Proof.Machine.execVatWordRebuild pool index part s
  | .cfgParityCheck addr flips => Sys2Proof.Machine.execCfgParityCheck addr flips s
  | .scraperRecovery => Sys2Proof.Machine.execScraperRecovery s
  | .scraperDone => Sys2Proof.Machine.execScraperDone s
  | .pipeStepTimeout p => Sys2Proof.Machine.execPipeStepTimeout p s
  | .pipeResetComplete p => Sys2Proof.Machine.execPipeResetComplete p s
  | .pipeRestored p => Sys2Proof.Machine.execPipeRestored p s
  | .resyncComplete => Sys2Proof.Machine.execResyncComplete s
  | .sramPassComplete allDiffer => Sys2Proof.Machine.execSramPassComplete allDiffer s
  | .headlessLimitExpiry => Sys2Proof.Machine.execHeadlessLimitExpiry s
  | .triadReturn val src => Sys2Proof.Machine.execTriadReturn val src s
  | .scraperPipeRestore val src => Sys2Proof.Machine.execScraperPipeRestore val src s
  | .ledgerWrite => Sys2Proof.Machine.execLedgerWrite s
  | .i3cWrite bytes parityOk => Sys2Proof.Machine.execI3cWrite bytes parityOk s
  | .i3cReadSetup bytes parityOk => Sys2Proof.Machine.execI3cReadSetup bytes parityOk s
  | .i3cRead code => Sys2Proof.Machine.execI3cRead code s
  | .entdaa won addr => Sys2Proof.Machine.execEntdaa won addr s
  | .rstdaa => Sys2Proof.Machine.execRstdaa s
  | .setnewda addr => Sys2Proof.Machine.execSetnewda addr s
  | .getpid => Sys2Proof.Machine.execGetpid s
  | .getbcr => Sys2Proof.Machine.execGetbcr s
  | .getdcr => Sys2Proof.Machine.execGetdcr s
  | .getstatus => Sys2Proof.Machine.execGetstatus s
  | .getmwl => Sys2Proof.Machine.execGetmwl s
  | .getmrl => Sys2Proof.Machine.execGetmrl s
  | .setmwl n => Sys2Proof.Machine.execSetmwl n s
  | .setmrl n ibi => Sys2Proof.Machine.execSetmrl n ibi s
  | .getmxds => Sys2Proof.Machine.execGetmxds s
  | .getcaps => Sys2Proof.Machine.execGetcaps s
  | .enec bits => Sys2Proof.Machine.execEnec bits s
  | .disec bits => Sys2Proof.Machine.execDisec bits s
  | .enthdr0 => Sys2Proof.Machine.execEnthdr0 s
  | .enthdrUnsupported => Sys2Proof.Machine.execEnthdrUnsupported s
  | .hotJoinRequest acked => Sys2Proof.Machine.execHotJoinRequest acked s
  | .ibiRequest src acked => Sys2Proof.Machine.execIbiRequest src acked s
  | .controlFrame q => Sys2Proof.Machine.execControlFrame q s
  | .keyLoad slot src => Sys2Proof.Machine.execKeyLoad slot src s
  | .keyClear slot src => Sys2Proof.Machine.execKeyClear slot src s
  | .registerWrite src addr val => Sys2Proof.Machine.execRegisterWrite src addr val s
  | .epochCmdStage src => Sys2Proof.Machine.execEpochCmdStage src s
  | .epochCmdCommit src => Sys2Proof.Machine.execEpochCmdCommit src s
  | .epochCmdCommitAt src => Sys2Proof.Machine.execEpochCmdCommitAt src s
  | .epochCmdCancel src => Sys2Proof.Machine.execEpochCmdCancel src s
  | .vatFillGo src => Sys2Proof.Machine.execVatFillGo src s
  | .vatSegMapWrite r val src => Sys2Proof.Machine.execVatSegMapWrite r val src s
  | .vatPool6CfgWrite val src => Sys2Proof.Machine.execVatPool6CfgWrite val src s
  | .macFcTxSend port resume src => Sys2Proof.Machine.execMacFcTxSend port resume src s
  | .freezeWrite freeze src => Sys2Proof.Machine.execFreezeWrite freeze src s
  | .snapWrite src => Sys2Proof.Machine.execSnapWrite src s
  | .portSnapshotReady => Sys2Proof.Machine.execPortSnapshotReady s
  | .ovfClear n src => Sys2Proof.Machine.execOvfClear n src s
  | .flowCapture r index src => Sys2Proof.Machine.execFlowCapture r index src s
  | .flowZero r src => Sys2Proof.Machine.execFlowZero r src s
  | .telemetryExport => Sys2Proof.Machine.execTelemetryExport s
  | .rstNAssert => Sys2Proof.Machine.execRstNAssert s
  | .pgoodInFall => Sys2Proof.Machine.execPgoodInFall s
  | .bootAnchor mode => Sys2Proof.Machine.execBootAnchor mode s
  | .domainPowerOn d => Sys2Proof.Machine.execDomainPowerOn d s
  | .settingsApply => Sys2Proof.Machine.execSettingsApply s
  | .bootCommit => Sys2Proof.Machine.execBootCommit s
  | .bootHold => Sys2Proof.Machine.execBootHold s
  | .bootContinue => Sys2Proof.Machine.execBootContinue s
  | .selectMould => Sys2Proof.Machine.execSelectMould s
  | .selectSlot => Sys2Proof.Machine.execSelectSlot s
  | .triadRestart => Sys2Proof.Machine.execTriadRestart s
  | .reboot => Sys2Proof.Machine.execReboot s
  | .starterMouldGo src => Sys2Proof.Machine.execStarterMouldGo src s
  | .settingsWrite bytes => Sys2Proof.Machine.execSettingsWrite bytes s
  | .updLock => Sys2Proof.Machine.execUpdLock s
  | .updUnlock => Sys2Proof.Machine.execUpdUnlock s
  | .updBegin => Sys2Proof.Machine.execUpdBegin s
  | .updWrite => Sys2Proof.Machine.execUpdWrite s
  | .updInstall => Sys2Proof.Machine.execUpdInstall s
  | .updConfirm => Sys2Proof.Machine.execUpdConfirm s
  | .updRollback => Sys2Proof.Machine.execUpdRollback s
  | .updStatus => Sys2Proof.Machine.execUpdStatus s
  | .flashOperationDone ok => Sys2Proof.Machine.execFlashOperationDone ok s
  | .settingsImport outcome converted => Sys2Proof.Machine.execSettingsImport outcome converted s
  | .handoverCheck => Sys2Proof.Machine.execHandoverCheck s
  | .handover agree => Sys2Proof.Machine.execHandover agree s
  | .handback ok => Sys2Proof.Machine.execHandback ok s
  | .tileCoreReload t b ok => Sys2Proof.Machine.execTileCoreReload t b ok s
  | .timeEngineReload ok => Sys2Proof.Machine.execTimeEngineReload ok s
  | .railSample mv => Sys2Proof.Machine.execRailSample mv s
  | .temperatureSample temps => Sys2Proof.Machine.execTemperatureSample temps s
  | .tripRelease src => Sys2Proof.Machine.execTripRelease src s
  | .vcoreTargetStep side target => Sys2Proof.Machine.execVcoreTargetStep side target s
  | .illegalInstruction e word => Sys2Proof.Machine.execIllegalInstruction e word s
  | .waitEnd e => Sys2Proof.Machine.execWaitEnd e s
  | .vatFillDone => Sys2Proof.Machine.execVatFillDone s
  | .hdrExitPattern => Sys2Proof.Machine.execHdrExitPattern s
  | .tilePllLock t => Sys2Proof.Machine.execTilePllLock t s
  | .restMarkerReceive n refresh => Sys2Proof.Machine.execRestMarkerReceive n refresh s
  | .lpiRxChange port lpi => Sys2Proof.Machine.execLpiRxChange port lpi s
  | .vaonUp => Sys2Proof.Machine.execVaonUp s
  | .vaonDown => Sys2Proof.Machine.execVaonDown s

end Sys2Proof.Machine
end

