-- ==== Sys2Proof/Machine/Tick.lean ====
section
/-!
DEFINITION. What one core clock does when no command waits: what expires in it expires, 625 ps pass, the engine count runs on with the slew
in progress, PPS_OUT follows it, and at a management clock the Starter takes a boot command (R31, R404, R413, R425,
R456, R483).
-/
namespace Sys2Proof.Machine

/-- Units of 2⁻¹⁶ ns in one core clock. -/
def tickUnits : Nat := 40960

/-- The slew's part of one clock: what it adds to the count, and the slew after it; a slew ends when nothing is
left, and stays with 0 left until SLEW_COMPLETE (R134). -/
def slewStep (w : Slew) : Int × Slew :=
  let total := w.carry + tickUnits * w.rate
  let n : Nat := total / 1000000000
  let m := min n w.left.natAbs
  (if w.left < 0 then -(m : Int) else (m : Int),
   { w with left := if w.left < 0 then w.left + m else w.left - m, carry := total % 1000000000 })

/-- The engine count after one core clock. -/
def tickTime (t : TimeSt) : TimeSt :=
  match t.slew with
  | none => { t with count := t.count + tickUnits }
  | some w =>
    let r := slewStep w
    { t with count := ((t.count : Int) + tickUnits + r.1).toNat, slew := some r.2 }

/-- PPS_OUT after the count moved from `old`: it rises out_delay_ps before each second boundary, stays high for
width_us, is low while pps_enable is 0 or the time is unset, and omits an edge inside the current pulse (R425). -/
def ppsStep (s : State) (old : Nat) (t : TimeSt) : TimeSt :=
  let adv := rwField s .time 5 15 0 * 65536 / 1000
  let on := rwField s .time 4 0 0 = 1 ∧ t.notSet = false
  if ¬ on then { t with ppsOut := false }
  else if t.ppsOut ∧ t.count < t.ppsFall then t
  else if (old + adv) / secUnits < (t.count + adv) / secUnits then
    { t with ppsOut := true, ppsFall := t.count + rwField s .time 4 19 1 * 1000 * 65536 }
  else { t with ppsOut := false }

/-- The training attempts of every lane whose tile core has halted end (R361). -/
def settleHalted (s : State) : State :=
  if s.engines.any (fun p => 2 ≤ p.1 && p.1 < 18 && p.2.run == .halted) then settleCores (List.range 512) s else s

/-- What happens at each management clock: a boot command is taken, and conditions of in-band interrupts that no longer
hold are forgotten (R456, R483). -/
def mgmtTick (s : State) : State := ibiSettle (takeBootCommand (settleHalted s))

/-- The expiries of a core clock, after its arrivals: reorder holds, frames in assembly, credit leases, training timeouts
and stops whose time has come (R52, R55, R317, R338, R340, R377). -/
def expireAll (s : State) : State :=
  let s1 := expireDues (s.fabric.heldFrames.map (fun p => p.1)) s
  let s2 := endLeases s1.fabric.grants (expireAssemblies (s1.fabric.partialFrames.map (fun p => p.1)) s1)
  endStops (expireTrainings (s2.lanes.map (fun p => p.1)) s2)

/-- What firmware has decided by this core clock: which program takes control traffic, and whether the time engine serves
other units (R459, R499; notes/assumptions 125). -/
def firmwareClock (s : State) : State :=
  let asked := (Sys2Proof.Config.controlListener s.now).map (fun n => ownerName 7 (n % 65535 + 1))
  { s with
    ctl := { s.ctl with listener := if engineRuns s eTriad then asked else none }
    upd := { s.upd with timeServes := engineRuns s eTime && Sys2Proof.Config.timeServes s.now } }

/-- The end of a core clock: expiries, the scheduler's offers, the Turner's visits, the lanes' checkers and what firmware decides;
buffers returned in it may be claimed from the next (R217, R266, R298, R387). -/
def endClock (s : State) : State :=
  let s1 := turnerClock (refreshOffers (expireAll s))
  let s2 := firmwareClock (runCheckers (s1.lanes.map (fun p => p.1)) s1)
  { s2 with vat := { s2.vat with returned := [] } }

/-- One core clock: the counters see the occupancies at its start; the engine count runs while PD02 is on. -/
def tick (s0 : State) : State :=
  let s := endClock s0
  let s1 := perfClock s
  let s2 := markCounts { s1 with
    now := s1.now + 625
    time := if domainOn s1 2 then ppsStep s1 s1.time.count (tickTime s1.time) else s1.time }
  if mgmtClock s2 = mgmtClock s then s2 else mgmtTick s2

/-! ## Upsets -/

/-- Note that an element is bad, once. -/
def markBad (n : Nat) (l : List Nat) : List Nat := if l.contains n then l else l ++ [n]

/-- An upset of stored state (R85, R250, R269, R276, R438). It changes no value: what a later read finds is parity, ECC or
voting. -/
def strike (u : Sys2Proof.Config.Upset) (s : State) : State :=
  match u with
  | .none => s
  | .localByte e a =>
    let x := engine s e
    if e = eTriad ∨ eStarter < e then s else setEngine e { x with badParity := markBad a x.badParity } s
  | .coreByte c a =>
    if 3 ≤ c ∨ s.triad.coreParity.contains (c, a) then s
    else { s with triad := { s.triad with coreParity := s.triad.coreParity ++ [(c, a)] } }
  | .coreReg c => if 3 ≤ c then s else { s with triad := { s.triad with dissent := s.triad.dissent ||| 2 ^ c } }
  | .cell c => { s with press := { s.press with bad := markBad c s.press.bad } }
  | .descriptor i => if mhas s.descs i then setDesc i { desc s i with bad := true } s else s
  | .queueCopy b c =>
    if 16 ≤ b ∨ 2 ≤ c ∨ s.qm.copyLost.contains (b, c) then s
    else
      let ch := copyBuffer s b c / 768
      let x := chan s ch
      setChan ch { x with uncorrected := (x.uncorrected + 1) % 2 ^ 32 }
        { s with qm := { s.qm with copyLost := s.qm.copyLost ++ [(b, c)] } }
  | .caveCorrected c =>
    let x := chan s c
    if 8 ≤ c ∨ ¬ x.ready then s else setChan c { x with corrected := (x.corrected + 1) % 2 ^ 32 } s
  | .entry k => { s with badEntries := markBad k s.badEntries }

/-- What a step does when no command waits: one core clock, and the upset that strikes in it. -/
def idleClock (s : State) : State := strike (Sys2Proof.Config.upset s.now) (tick s)

end Sys2Proof.Machine
end

