-- ==== Sys2Proof/WellFormed.lean ====
section
/-!
DEFINITION. Which commands can be presented: the bounds that the operand types do not carry. Every other operand is
bounded by its type.
-/
namespace Sys2Proof

/-- What a join request may say: a firmware version, levels and an incarnation of one byte, a 16-bit epoch (R344, R346). -/
def JoinInfo.wellFormed (j : JoinInfo) : Bool :=
  decide (j.major < 256) && decide (j.minor < 256) && decide (j.levelMin < 256) && decide (j.levelMax < 256)
    && decide (j.incarnation < 256) && decide (j.epoch < 65536)

/-- What a ROLL or BEAT cell may say: incarnations of one byte, epochs of 16 bits, the reasons of R446. -/
def FabricMsg.wellFormed : FabricMsg → Bool
  | .plain => true
  | .announce _ _ _ inc _ major minor levelMin levelMax _ masterEpoch _ _ =>
    decide (inc < 256) && decide (major < 256) && decide (minor < 256) && decide (levelMin < 256)
      && decide (levelMax < 256) && decide (masterEpoch < 65536)
  | .join info => info.wellFormed
  | .assign _ _ inc epoch level minor =>
    decide (inc < 256) && decide (epoch < 65536) && decide (level < 256) && decide (minor < 256)
  | .refuse _ reason asked => decide (reason < 8) && decide (asked < 1024)
  | .beat _ inc oldest => decide (inc < 256) && (match oldest with | some e => decide (e < 65536) | none => true)

/-- Buffers of a pool at most, whatever the maps say (R252). -/
def poolLimit : Nat → Nat
  | 0 => 1507328 | 1 => 131072 | 2 => 16384 | 3 => 2048 | 4 => 256 | 5 => 50331648 | 6 => 6144 | _ => 1572864

/-- A word or a record of the Vat that exists (R435). -/
def VatPart.wellFormed (part : VatPart) (pool : Fin 8) (index : Nat) : Bool :=
  match part with
  | .recordFails => decide (index < poolLimit pool.val)
  | .wordFails => decide (index * 64 < poolLimit pool.val)
  | .wordRebuilt => decide (index * 64 < poolLimit pool.val)

/-- A finding of an AUDIT pass: a buffer is named by an index its pool has, a register by its aligned address. -/
def AuditFinding.wellFormed : AuditFinding → Bool
  | .triadChannel _ => true
  | .entry _ _ => true
  | .register addr _ => addr.toNat % 16 == 0
  | .buffer h => decide (h.toNat % 2 ^ 29 < poolLimit (h.toNat / 2 ^ 29))
  | .link _ => true

/-- The commands that can be presented. -/
def Instr.wellFormed : Instr → Bool
  -- frameReceive: a whole frame has a byte at least; a codeword is corrected at most once for a byte it carries (R394)
  | .frameReceive _ bytes _ corrected => !bytes.isEmpty && decide (corrected ≤ bytes.length)
  -- wheelRelease: queue shapers, then 65,536 node shapers for each pipe (R306)
  | .wheelRelease shaper => decide (shaper < 3145728)
  -- cellReceive: a cell is 276 bytes (R325)
  | .cellReceive _ bytes msg _ => decide (bytes.length = 276) && msg.wellFormed
  -- routeScrub: rows of a slice (R225)
  | .routeScrub _ row _ => decide (row < 40960)
  -- auditDone: every finding names a buffer or a register that exists (R441)
  | .auditDone found => found.all AuditFinding.wellFormed
  -- vatWordRebuild: a word of 64 buffers, or a buffer, of the pool (R252, R435)
  | .vatWordRebuild pool index part => part.wellFormed pool index
  -- i3cWrite: a kind byte and an address (R454)
  | .i3cWrite bytes _ => decide (5 ≤ bytes.length)
  -- i3cReadSetup: a kind byte and an address (R454)
  | .i3cReadSetup bytes _ => decide (5 ≤ bytes.length)
  -- settingsWrite: a set has a 256-byte header and fits a half (R475, R476)
  | .settingsWrite bytes => decide (256 ≤ bytes.length) && decide (bytes.length ≤ 0x400000)
  -- settingsImport: a converted set fits a half (R475)
  | .settingsImport _ converted => decide (converted.length ≤ 0x400000)
  -- railSample: one reading a rail (R533)
  | .railSample mv => decide (mv.length = 9)
  -- temperatureSample: one reading a sensor (R533)
  | .temperatureSample temps => decide (temps.length = 18)
  -- vcoreTargetStep: the range of a VCORE target (R527)
  | .vcoreTargetStep _ target => decide (650 ≤ target.toNat) && decide (target.toNat ≤ 750)
  -- illegalInstruction: a word that R111 to R113 make illegal (R112)
  | .illegalInstruction e word => (decodeKrenus e word).isNone
  | .ingressSequence .. | .enqueue .. | .stateFetch .. | .coldWriteback .. | .pageOut ..
  | .pageFlushExpiry .. | .pageIn .. | .pageInDone .. | .prefetch .. | .egressSelection ..
  | .epochDrainExpiry .. | .gateEntryAdvance .. | .gateListStart .. | .pauseStopExpiry ..
  | .egressSequence .. | .frameTransmit .. | .pauseRefresh .. | .lpiIdleExpiry .. | .fabricSend ..
  | .linkCellEmit .. | .linkNoCellTimeout .. | .requestSend .. | .grantIssue .. | .leaseExpiry ..
  | .grantAgeExpiry .. | .assemblyTimeout .. | .reorderHoldExpiry .. | .rollAnnounce .. | .joinRequest ..
  | .joinRetry .. | .beatSend .. | .unitLossTimeout .. | .signalDetect .. | .trainingFrameReceive ..
  | .receiverReady .. | .trainingTimeout .. | .attemptLimitExpiry .. | .fecLock .. | .fecLockWaitExpiry ..
  | .fecLockLoss .. | .backoffEnd .. | .laneLossOfSignal .. | .adaptationUpdate .. | .eyeUpdate ..
  | .tilePllLoss .. | .restIdleExpiry .. | .restRefresh .. | .restWake .. | .refreshTimeout .. | .wakeEnd ..
  | .laneTestWrite .. | .secondBoundary .. | .ppsEdge .. | .scheduledAction .. | .slewComplete ..
  | .ptpParentLoss .. | .refCapAck .. | .tsqPop .. | .learnApply .. | .turnerVisit .. | .l2Flush ..
  | .l2FlushDone .. | .rehashDone .. | .placement .. | .fragExpiry .. | .caveChannelFail ..
  | .caveChannelReady .. | .queueCopyRebuild .. | .queueFlushDone .. | .stageOpen .. | .commitEffect ..
  | .commitAtTime .. | .pipeCutover .. | .add .. | .sub .. | .and .. | .or .. | .xor .. | .shl .. | .shr ..
  | .sar .. | .slt .. | .sltu .. | .mul .. | .mulhu .. | .divu .. | .remu .. | .div .. | .rem .. | .popc ..
  | .clz .. | .ctz .. | .bswap .. | .crc32c .. | .addi .. | .andi .. | .ori .. | .xori .. | .shi .. | .lui ..
  | .ldB .. | .ldH .. | .ldW .. | .ldD .. | .ldBs .. | .ldHs .. | .ldWs .. | .stB .. | .stH .. | .stW ..
  | .stD .. | .beq .. | .bne .. | .blt .. | .bge .. | .bltu .. | .bgeu .. | .jal .. | .jalr .. | .csrRd ..
  | .csrWr .. | .trapCall .. | .trapRet .. | .wait .. | .interruptTaken .. | .ldc .. | .stc .. | .copy ..
  | .tblWr .. | .tblRd .. | .tblIns .. | .tblDel .. | .tblFind .. | .tblProg .. | .rehash .. | .vatAlloc ..
  | .vatAllocP .. | .vatFree .. | .vatRelease .. | .vatShare .. | .qEnq .. | .qRead .. | .qFlush ..
  | .qPin .. | .qUnpin .. | .qLock .. | .qUnlock .. | .timeRd .. | .timeRdn .. | .timeSet .. | .timeStep ..
  | .timeSlew .. | .timeAt .. | .timeCancel .. | .epochStage .. | .epochCommit .. | .epochCommitAt ..
  | .epochCancel .. | .epochStatus .. | .ctrFreeze .. | .ctrSnap .. | .ctrRd .. | .ctrOvf .. | .ctrWr ..
  | .faultRaise .. | .faultDeclare .. | .auditRun .. | .tableRepair .. | .cfgParityCheck ..
  | .scraperRecovery .. | .scraperDone .. | .pipeStepTimeout .. | .pipeResetComplete .. | .pipeRestored ..
  | .resyncComplete .. | .sramPassComplete .. | .headlessLimitExpiry .. | .triadReturn ..
  | .scraperPipeRestore .. | .ledgerWrite .. | .i3cRead .. | .entdaa .. | .rstdaa .. | .setnewda ..
  | .getpid .. | .getbcr .. | .getdcr .. | .getstatus .. | .getmwl .. | .getmrl .. | .setmwl .. | .setmrl ..
  | .getmxds .. | .getcaps .. | .enec .. | .disec .. | .enthdr0 .. | .enthdrUnsupported ..
  | .hotJoinRequest .. | .ibiRequest .. | .controlFrame .. | .keyLoad .. | .keyClear .. | .registerWrite ..
  | .epochCmdStage .. | .epochCmdCommit .. | .epochCmdCommitAt .. | .epochCmdCancel .. | .vatFillGo ..
  | .vatSegMapWrite .. | .vatPool6CfgWrite .. | .macFcTxSend .. | .freezeWrite .. | .snapWrite ..
  | .portSnapshotReady .. | .ovfClear .. | .flowCapture .. | .flowZero .. | .telemetryExport ..
  | .rstNAssert .. | .pgoodInFall .. | .bootAnchor .. | .domainPowerOn .. | .settingsApply ..
  | .bootCommit .. | .bootHold .. | .bootContinue .. | .selectMould .. | .selectSlot .. | .triadRestart ..
  | .reboot .. | .starterMouldGo .. | .updLock .. | .updUnlock .. | .updBegin .. | .updWrite ..
  | .updInstall .. | .updConfirm .. | .updRollback .. | .updStatus .. | .flashOperationDone ..
  | .handoverCheck .. | .handover .. | .handback .. | .tileCoreReload .. | .timeEngineReload ..
  | .tripRelease .. | .waitEnd .. | .vatFillDone .. | .hdrExitPattern .. | .tilePllLock ..
  | .restMarkerReceive .. | .lpiRxChange .. | .vaonUp .. | .vaonDown .. => true

end Sys2Proof
end

