-- ==== Sys2Proof/Safety.lean ====
section
/-!
DEFINITION. What counts as a safe run, and the terms in which the statements speak of a command that completes.
-/
namespace Sys2Proof.Machine

/-- The command completes: it answers a next state. -/
def completes (c : Instr) (s : State) : Prop := ∃ t, exec c s = .next t

/-- `k` steps from the state end in no fault and no refusal. -/
def safeFor (k : Nat) (s : State) : Prop := ∃ t, Host.Core.run core k s = .next t

/-- The Triad's channels are in step: no channel's registers and no byte of its SRAM copy alone is wrong (R85, R437).
Nothing of the kind is asked of another engine. -/
def inStep (s : State) (e : EngineId) : Prop := e = 0 → s.triad.dissent = 0 ∧ s.triad.coreParity = []

/-- An engine starts the instruction at its pc: it runs and the fetch takes no trap. -/
def starts (s : State) (e : EngineId) : Prop :=
  canRun s e = true ∧ accessFault s e .exec (engine s e).pc.toNat 4 = none ∧ inStep s e

/-- It starts, and its group is available on the engine and open to the tier. -/
def startsDev (s : State) (e : EngineId) (g : Group) : Prop :=
  starts s e ∧ groupOn e g = true ∧ groupTier (tierOf s e) g = true

/-- Engine `e` has `v` in kd (k0 takes no value), its pc at `pc`, and no other register of any engine has changed. -/
def wrote (s t : State) (e : EngineId) (kd : KReg) (v pc : Word64) : Prop :=
  (∀ k, kget t e k = if k = kd ∧ k ≠ 0 then v else kget s e k)
    ∧ (engine t e).pc = pc
    ∧ { engine t e with gpr := (engine s e).gpr, pc := (engine s e).pc } = engine s e
    ∧ ∀ f, f ≠ e.val → engine t f = engine s f

/-- Engine `e` continues at `pc`, and no other register of any engine has changed. -/
def wentTo (s t : State) (e : EngineId) (pc : Word64) : Prop :=
  (engine t e).pc = pc ∧ { engine t e with pc := (engine s e).pc } = engine s e
    ∧ ∀ f, f ≠ e.val → engine t f = engine s f

/-- The byte of the memory space that engine `e` sees at address `a` (R73). -/
def byteSeen (s : State) (e a : Nat) : Byte := (loadBytes s e a 1).headD 0

/-- The number whose little-endian bytes engine `e` sees at addresses `a` to `a + n - 1`. -/
def numberSeen (s : State) (e a : Nat) : Nat → Nat
  | 0 => 0
  | n + 1 => (byteSeen s e a).toNat + 256 * numberSeen s e (a + 1) n

/-- Engine `e` has taken a trap with this cause, KC_TVAL and KC_EPC (R83): T0 with interrupts off and in_trap set, the
old tier and int_enable saved, at KC_TVEC; every other register of every engine is as it was. -/
def trapEntry (s t : State) (e : EngineId) (cause : Nat) (tval epc : Word64) : Prop :=
  let x := engine s e
  let y := engine t e
  y.cause.toNat = cause ∧ y.tval = tval ∧ y.epc = epc ∧ y.pc = x.tvec
    ∧ y.status.toNat = x.status.toNat % 4 * 4 + x.status.toNat / 16 % 2 * 32 + 64
    ∧ { y with cause := x.cause, tval := x.tval, epc := x.epc, pc := x.pc, status := x.status } = x
    ∧ ∀ f, f ≠ e.val → engine t f = engine s f

/-- The engine is in a trap handler: in_trap is 1 (R69). -/
def inTrap (s : State) (e : EngineId) : Prop := (engine s e).status.toNat / 64 % 2 = 1

/-- A memory after `bs` was written from address `a`: those bytes, and every other byte as before. -/
def bytesStored (old new : Memory) (a : Nat) (bs : List Byte) : Prop :=
  ∀ b, memByte new b = if a ≤ b ∧ b < a + bs.length then bs.getD (b - a) 0 else memByte old b

/-- The engine's memory after `bs` was stored from address `a` of its memory space (R73): the bytes lie where the
address lies, and every other byte of every memory of the machine is as it was. -/
def stored (s t : State) (e : EngineId) (a : Nat) (bs : List Byte) : Prop :=
  match placeOf e a with
  | some (.localMem _) => bytesStored (engine s e).mem (engine t e).mem a bs ∧ t.press = s.press ∧ t.cave = s.cave
  | some (.scratch off) => bytesStored s.press.scratch t.press.scratch off bs
      ∧ { t.press with scratch := s.press.scratch } = s.press ∧ (engine t e).mem = (engine s e).mem ∧ t.cave = s.cave
  | some (.cave off) => bytesStored s.cave.mem t.cave.mem off bs
      ∧ { t.cave with mem := s.cave.mem } = s.cave ∧ (engine t e).mem = (engine s e).mem ∧ t.press = s.press
  | none => False

/-- Engine `e` continues at the next word with its registers as they were; its memory may have changed. -/
def wentOn (s t : State) (e : EngineId) : Prop :=
  (engine t e).pc = (engine s e).pc + 4
    ∧ { engine t e with pc := (engine s e).pc, mem := (engine s e).mem, badParity := (engine s e).badParity } = engine s e
    ∧ ∀ f, f ≠ e.val → engine t f = engine s f

/-- Engine `e` has `v` in kd and continues at the next word; its memory may have changed, no other register has. -/
def wroteOn (s t : State) (e : EngineId) (kd : KReg) (v : Word64) : Prop :=
  (∀ k, kget t e k = if k = kd ∧ k ≠ 0 then v else kget s e k)
    ∧ (engine t e).pc = (engine s e).pc + 4
    ∧ { engine t e with gpr := (engine s e).gpr, pc := (engine s e).pc, mem := (engine s e).mem,
                        badParity := (engine s e).badParity } = engine s e
    ∧ ∀ f, f ≠ e.val → engine t f = engine s f

/-- One event more waits for the ledger, or it was counted as dropped (R442). -/
def eventRaised (s t : State) : Prop :=
  if s.ledger.fifo.length < 64 then t.ledger.fifo.length = s.ledger.fifo.length + 1
  else t.ledger.dropped = (s.ledger.dropped + 1) % 2 ^ 32 ∧ t.ledger.fifo = s.ledger.fifo

/-- The byte memories of the state are in canonical form. -/
def State.memoriesWf (s : State) : Prop :=
  (∀ e, Memory.wf (engine s e).mem = true) ∧ Memory.wf s.press.cells = true ∧ Memory.wf s.press.scratch = true
    ∧ Memory.wf s.cave.mem = true ∧ Memory.wf s.flash.cells = true

/-- What a write of a register makes of its bits: the alias has acted on the bits it can change. -/
def regWr (s : State) (b : Block) (r al v : Nat) : RegWr :=
  let opened := rwlOpen s b && (specOf b r).rwl != 0
  let mask := (specOf b r).rw + (if opened then (specOf b r).rwl else 0)
  let old := storedBits s b r
  { new := (old &&& (0xFFFFFFFF ^^^ mask)) ||| (applyAlias al old v &&& mask)
    opened := opened
    wo := if al ≠ 8 then v &&& (specOf b r).wo else 0 }

/-- The source may write the register through an alias, the register answers, and the write is not refused. -/
def accepts (s : State) (src : Source) (b : Block) (r al v : Nat) : Prop :=
  sourceMay s src true (regAddr b r + al) = true ∧ accessOf s src (regAddr b r + al) = .mapped b r
    ∧ regRefusal s b r (regWr s b r al v) = none

/-- A register whose write only stores: it starts no command and has no side that acts at once. -/
def plainReg : Block → Nat → Bool
  | .time, r => r != 0 && !(decide (16 ≤ r) && decide (r ≤ 19))
  | .refin, r => r % 16 != 7
  | .tsq, r => r % 64 != 6
  | .vat, r => r != 5
  | .scraper, r => r != 3
  | .epoch, r => r != 2
  | .l2b _, r => r != 20
  | .perfctr, r => decide (r < 4096) && r % 16 != 9
  | .flowctr, _ => false
  | .lane _, r => r != 8 && r != 4
  | .mac _, r => r != 3
  | .starter, r => r != 1
  | .sensor, r => r != 3
  | .triad, r => r != 6
  | .ctlport, r => r == 0 || r == 10
  | _, _ => true

/-- The stored bits of every other register are as they were, and of the register file only stored bits and parity
conditions have changed. -/
def otherRegsKept (s t : State) (b : Block) (r : Nat) : Prop :=
  (∀ b' r', regKey b' r' ≠ regKey b r → rwBits t b' r' = rwBits s b' r')
    ∧ { t.regs with rw := s.regs.rw, parity := s.regs.parity } = s.regs

end Sys2Proof.Machine
end

