-- ==== Sys2Proof/Certificates/Slice0/Obligations.lean ====
section
/-!
DEFINITION. The statements for the provers. Each says, for every state and operands that meet its hypotheses, that the
commands it names complete, what the next state holds, and what it leaves unchanged: `{ t with f := s.f } = s` says
that t differs from s in the field f alone.
-/
namespace Sys2Proof.Claims
open Sys2Proof Sys2Proof.Machine

/-- What R115 and R116 give for the result of an arithmetic instruction, as a property of the value written. -/
def aluResult (s : State) : Instr → Option (EngineId × KReg × (Word64 → Prop))
  | .add e kd ka kb => some (e, kd, fun v => v = BitVec.ofNat 64 ((kget s e ka).toNat + (kget s e kb).toNat))
  | .sub e kd ka kb => some (e, kd, fun v => v = BitVec.ofInt 64 ((kget s e ka).toNat - (kget s e kb).toNat : Int))
  | .and e kd ka kb => some (e, kd, fun v => ∀ i, v.getLsbD i = ((kget s e ka).getLsbD i && (kget s e kb).getLsbD i))
  | .or e kd ka kb => some (e, kd, fun v => ∀ i, v.getLsbD i = ((kget s e ka).getLsbD i || (kget s e kb).getLsbD i))
  | .xor e kd ka kb => some (e, kd, fun v => ∀ i, v.getLsbD i = ((kget s e ka).getLsbD i ^^ (kget s e kb).getLsbD i))
  | .shl e kd ka kb => some (e, kd, fun v =>
      v = BitVec.ofNat 64 ((kget s e ka).toNat * 2 ^ ((kget s e kb).toNat % 64)))
  | .shr e kd ka kb => some (e, kd, fun v =>
      v = BitVec.ofNat 64 ((kget s e ka).toNat / 2 ^ ((kget s e kb).toNat % 64)))
  | .sar e kd ka kb => some (e, kd, fun v =>
      v = BitVec.ofInt 64 ((kget s e ka).toInt / (2 ^ ((kget s e kb).toNat % 64) : Int)))
  | .slt e kd ka kb => some (e, kd, fun v => v = if (kget s e ka).toInt < (kget s e kb).toInt then 1 else 0)
  | .sltu e kd ka kb => some (e, kd, fun v => v = if (kget s e ka).toNat < (kget s e kb).toNat then 1 else 0)
  | .mul e kd ka kb => some (e, kd, fun v => v = BitVec.ofNat 64 ((kget s e ka).toNat * (kget s e kb).toNat))
  | .mulhu e kd ka kb => some (e, kd, fun v => v.toNat = (kget s e ka).toNat * (kget s e kb).toNat / 2 ^ 64)
  | .divu e kd ka kb => some (e, kd, fun v =>
      v.toNat = if (kget s e kb).toNat = 0 then 2 ^ 64 - 1 else (kget s e ka).toNat / (kget s e kb).toNat)
  | .remu e kd ka kb => some (e, kd, fun v => v.toNat = (kget s e ka).toNat % (kget s e kb).toNat)
  | .div e kd ka kb => some (e, kd, fun v => v =
      if kget s e kb = 0 then BitVec.ofInt 64 (-1) else BitVec.ofInt 64 ((kget s e ka).toInt.tdiv (kget s e kb).toInt))
  | .rem e kd ka kb => some (e, kd, fun v => v.toInt = (kget s e ka).toInt.tmod (kget s e kb).toInt)
  | .popc e kd ka => some (e, kd, fun v => v.toNat = ((List.range 64).filter ((kget s e ka).getLsbD ·)).length)
  | .clz e kd ka => some (e, kd, fun v => (kget s e ka = 0 → v = 64)
      ∧ ∀ n < 64, (kget s e ka).getLsbD (63 - n) = true → (∀ i < n, (kget s e ka).getLsbD (63 - i) = false) → v.toNat = n)
  | .ctz e kd ka => some (e, kd, fun v => (kget s e ka = 0 → v = 64)
      ∧ ∀ n < 64, (kget s e ka).getLsbD n = true → (∀ i < n, (kget s e ka).getLsbD i = false) → v.toNat = n)
  | .bswap e kd ka => some (e, kd, fun v => ∀ i < 8, ∀ j < 8, v.getLsbD (8 * i + j) = (kget s e ka).getLsbD (8 * (7 - i) + j))
  | .crc32c e kd ka kb => some (e, kd, fun v =>
      v = BitVec.ofNat 64 (Machine.crc32c ((kget s e ka).toNat % 2 ^ 32) (leBytes 8 (kget s e kb).toNat)))
  | .addi e kd ka imm => some (e, kd, fun v => v = BitVec.ofInt 64 ((kget s e ka).toInt + imm.toInt))
  | .andi e kd ka imm => some (e, kd, fun v => ∀ i, v.getLsbD i = ((kget s e ka).getLsbD i && imm.getLsbD i))
  | .ori e kd ka imm => some (e, kd, fun v => ∀ i, v.getLsbD i = ((kget s e ka).getLsbD i || imm.getLsbD i))
  | .xori e kd ka imm => some (e, kd, fun v => ∀ i, v.getLsbD i = ((kget s e ka).getLsbD i ^^ imm.getLsbD i))
  | .shi e kd ka imm => some (e, kd, fun v =>
      let n := imm.toNat % 64
      let a := kget s e ka
      v = match imm.toNat / 64 with
        | 0 => BitVec.ofNat 64 (a.toNat * 2 ^ n)
        | 1 => BitVec.ofNat 64 (a.toNat / 2 ^ n)
        | 2 => BitVec.ofInt 64 (a.toInt / (2 ^ n : Int))
        | _ => BitVec.ofNat 64 (a.toNat / 2 ^ n + a.toNat * 2 ^ (64 - n)))
  | .lui e kd imm => some (e, kd, fun v => v = BitVec.ofInt 64 (imm.toInt * 2 ^ 16))
  | _ => none

end Sys2Proof.Claims

open Sys2Proof Sys2Proof.Machine Sys2Proof.Claims

/-- R115 and R116, and R67 for k0: the 27 arithmetic instructions write the result the rules give, continue at the next
word, and leave every other register of every engine, all memory and every other piece of state but the performance
counters as they were. A word of major 0x01 with a minor that is not assigned, or that names a kb where k0 must stand,
is no instruction. The latencies are left out: log entry 137. -/
def Obligations.ArithmeticResults : Prop :=
  (∀ (i : Instr) (s : State) (e : EngineId) (kd : KReg) (P : Word64 → Prop),
    aluResult s i = some (e, kd, P) → starts s e →
      ∃ v t, P v ∧ exec i s = .next t ∧ wrote s t e kd v ((engine s e).pc + 4)
        ∧ { t with engines := s.engines, perf := s.perf } = s)
  ∧ (∀ (e : EngineId) (w : BitVec 32), w.toNat / 2 ^ 26 = 1 →
      (0x15 ≤ w.toNat % 64 ∨ 0x10 ≤ w.toNat % 64 ∧ w.toNat % 64 ≤ 0x13 ∧ w.toNat / 2 ^ 11 % 32 ≠ 0) →
      decodeKrenus e w = none)

/-! ## Krenus-C -/

namespace Sys2Proof.Claims

/-- A load: its engine, kd, ka, offset, width in bytes, and whether it sign-extends (R117). -/
def loadForm : Instr → Option (EngineId × KReg × KReg × BitVec 16 × Nat × Bool)
  | .ldB e kd ka off => some (e, kd, ka, off, 1, false)
  | .ldH e kd ka off => some (e, kd, ka, off, 2, false)
  | .ldW e kd ka off => some (e, kd, ka, off, 4, false)
  | .ldD e kd ka off => some (e, kd, ka, off, 8, false)
  | .ldBs e kd ka off => some (e, kd, ka, off, 1, true)
  | .ldHs e kd ka off => some (e, kd, ka, off, 2, true)
  | .ldWs e kd ka off => some (e, kd, ka, off, 4, true)
  | _ => none

/-- A store: its engine, kd, ka, offset, width in bytes, and how the Triad's channels present it (R117, R437). -/
def storeForm : Instr → Option (EngineId × KReg × KReg × BitVec 16 × Nat × Vote)
  | .stB e kd ka off v => some (e, kd, ka, off, 1, v)
  | .stH e kd ka off v => some (e, kd, ka, off, 2, v)
  | .stW e kd ka off v => some (e, kd, ka, off, 4, v)
  | .stD e kd ka off v => some (e, kd, ka, off, 8, v)
  | _ => none

/-- The address of a load or store: ka plus the sign-extended offset, modulo 2⁶⁴ (R117). -/
def accessAddr (s : State) (e : EngineId) (ka : KReg) (off : BitVec 16) : Nat := (effAddr (kget s e ka) off).toNat

/-- A branch: its engine, whether the rule takes it in this state, and its offset (R118). -/
def branchForm (s : State) : Instr → Option (EngineId × Bool × BitVec 16)
  | .beq e ka kb off => some (e, decide (kget s e ka = kget s e kb), off)
  | .bne e ka kb off => some (e, decide (kget s e ka ≠ kget s e kb), off)
  | .blt e ka kb off => some (e, decide ((kget s e ka).toInt < (kget s e kb).toInt), off)
  | .bge e ka kb off => some (e, decide ((kget s e kb).toInt ≤ (kget s e ka).toInt), off)
  | .bltu e ka kb off => some (e, decide ((kget s e ka).toNat < (kget s e kb).toNat), off)
  | .bgeu e ka kb off => some (e, decide ((kget s e kb).toNat ≤ (kget s e ka).toNat), off)
  | _ => none

/-- The engine register of a number, for a tier that may read it (R68). -/
def csrValue (s : State) (e : EngineId) (sel : Nat) : Option Word64 :=
  let x := engine s e
  if sel = 0 then some x.status
  else if sel = 6 then some x.owner
  else if sel = 7 then some (BitVec.ofNat 64 ((s.now - x.leftReset) / clockPs e))
  else if tierOf s e ≠ 0 then none
  else if sel = 1 then some x.cause
  else if sel = 2 then some x.epc
  else if sel = 3 then some x.tval
  else if sel = 4 then some x.tvec
  else if sel = 5 then some x.scratch
  else if 8 ≤ sel ∧ sel ≤ 0x17 then some (mget 0 x.regionBase (sel - 8))
  else if 0x18 ≤ sel ∧ sel ≤ 0x27 then some (mget 0 x.regionLimit (sel - 0x18))
  else none

/-- What a T0 write of an engine register makes of it (R68 to R70, R257): tier keeps its value in KC_STATUS, the
reserved bits of KC_STATUS and of KC_OWNER read 0. -/
def csrAfter (x : Engine) (sel : Nat) (v : Word64) : Word64 :=
  if sel = 0 then BitVec.ofNat 64 (x.status.toNat % 4 + v.toNat / 4 % 32 * 4)
  else if sel = 6 then BitVec.ofNat 64 (v.toNat % 2 ^ 32)
  else v

/-- An engine without its engine register of a number: the part a write of that register leaves alone. -/
def csrCleared (x : Engine) (sel : Nat) : Engine :=
  if sel = 0 then { x with status := 0 }
  else if sel = 1 then { x with cause := 0 }
  else if sel = 2 then { x with epc := 0 }
  else if sel = 3 then { x with tval := 0 }
  else if sel = 4 then { x with tvec := 0 }
  else if sel = 5 then { x with scratch := 0 }
  else if sel = 6 then { x with owner := 0 }
  else if sel ≤ 0x17 then { x with regionBase := mset 0 x.regionBase (sel - 8) 0 }
  else { x with regionLimit := mset 0 x.regionLimit (sel - 0x18) 0 }

end Sys2Proof.Claims

/-- R117: each load writes the bytes at its address, little-endian, zero- or sign-extended, to kd, and changes nothing
else; where its checks refuse the access it traps with the cause and address they give. Where the rules leave a point
open it follows log entry 21. -/
def Obligations.LoadResults : Prop :=
  ∀ (i : Instr) (s : State) (e : EngineId) (kd ka : KReg) (off : BitVec 16) (n : Nat) (sx : Bool),
    loadForm i = some (e, kd, ka, off, n, sx) → starts s e →
      let a := accessAddr s e ka off
      (accessFault s e .read a n = none → ∃ t, exec i s = .next t
        ∧ wrote s t e kd
            (if sx then BitVec.ofInt 64 (signed (8 * n) (numberSeen s e a n)) else BitVec.ofNat 64 (numberSeen s e a n))
            ((engine s e).pc + 4)
        ∧ { t with engines := s.engines, perf := s.perf } = s)
      ∧ (∀ f, accessFault s e .read a n = some f → ¬ inTrap s e → ∃ t, exec i s = .next t
        ∧ trapEntry s t e f.1 (BitVec.ofNat 64 f.2) (engine s e).pc
        ∧ { t with engines := s.engines, perf := s.perf } = s)

/-- R117, R437: each store whose checks pass, and whose output needs no vote or has all channels agree, stores kd's
low bytes at its address and continues; nothing else changes. Refused by its checks, it traps and stores nothing.
Where the rules leave a point open it follows log entries 21 and 102. -/
def Obligations.StoreResults : Prop :=
  ∀ (i : Instr) (s : State) (e : EngineId) (kd ka : KReg) (off : BitVec 16) (n : Nat) (v : Vote),
    storeForm i = some (e, kd, ka, off, n, v) → starts s e →
      let a := accessAddr s e ka off
      (accessFault s e .write a n = none → (e ≠ 0 ∨ v = .agree) → ∃ t, exec i s = .next t
        ∧ stored s t e a (leBytes n (kget s e kd).toNat) ∧ wentOn s t e
        ∧ { t with engines := s.engines, press := s.press, cave := s.cave, perf := s.perf } = s)
      ∧ (∀ f, accessFault s e .write a n = some f → ¬ inTrap s e → ∃ t, exec i s = .next t
        ∧ trapEntry s t e f.1 (BitVec.ofNat 64 f.2) (engine s e).pc
        ∧ { t with engines := s.engines, perf := s.perf } = s)

/-- R437, R438: a store by the Triad in TRIPLEX that one voting channel presents differently takes the value of the
other two, and the channel leaves the vote. Where the rules leave a point open it follows log entry 102. -/
def Obligations.MajorityVote : Prop :=
  ∀ (i : Instr) (s : State) (kd ka : KReg) (off : BitVec 16) (n : Nat) (c : Fin 3),
    storeForm i = some (0, kd, ka, off, n, .differs c) → starts s 0 → accessFault s 0 .write (accessAddr s 0 ka off) n = none →
      s.triad.mode = .triplex → bitOf s.triad.inVote c = true →
      ∃ t, exec i s = .next t
        ∧ stored s t 0 (accessAddr s 0 ka off) (leBytes n (kget s 0 kd).toNat) ∧ wentOn s t 0
        ∧ t.triad.inVote = s.triad.inVote - 2 ^ c.val ∧ t.triad.mode ≠ .triplex
        ∧ mget 0 t.triad.isolations c = (mget 0 s.triad.isolations c + 1) % 2 ^ 32
        ∧ { t with engines := s.engines, press := s.press, cave := s.cave, perf := s.perf, triad := s.triad,
                   ledger := s.ledger } = s

/-- R118: a branch continues at PC + 4 × its offset when its comparison holds and at the next word otherwise, JAL and
JALR jump and link, JALR to a misaligned target traps with FETCH_MISALIGNED; nothing else changes. -/
def Obligations.BranchAndJump : Prop :=
  (∀ (i : Instr) (s : State) (e : EngineId) (taken : Bool) (off : BitVec 16),
    branchForm s i = some (e, taken, off) → starts s e → ∃ t, exec i s = .next t
      ∧ wentTo s t e (if taken then (engine s e).pc + BitVec.ofInt 64 (4 * off.toInt) else (engine s e).pc + 4)
      ∧ { t with engines := s.engines, perf := s.perf } = s)
  ∧ (∀ (s : State) (e : EngineId) (off : BitVec 26), starts s e → ∃ t, exec (.jal e off) s = .next t
      ∧ wrote s t e 1 ((engine s e).pc + 4) ((engine s e).pc + BitVec.ofInt 64 (4 * off.toInt))
      ∧ { t with engines := s.engines, perf := s.perf } = s)
  ∧ (∀ (s : State) (e : EngineId) (kd ka : KReg) (imm : BitVec 16), starts s e →
      let target := kget s e ka + BitVec.ofInt 64 imm.toInt
      (target.toNat % 4 = 0 → ∃ t, exec (.jalr e kd ka imm) s = .next t
        ∧ wrote s t e kd ((engine s e).pc + 4) target ∧ { t with engines := s.engines, perf := s.perf } = s)
      ∧ (target.toNat % 4 ≠ 0 → ¬ inTrap s e → ∃ t, exec (.jalr e kd ka imm) s = .next t
        ∧ trapEntry s t e 0x04 target (engine s e).pc ∧ { t with engines := s.engines, perf := s.perf } = s))

/-- R68 to R70, R119: CSR.RD writes the engine register to kd where the tier may read it; CSR.WR in T0 writes the
engine register as R68 to R70 allow, KC_TVEC with an aligned address; a number not listed or a tier not permitted
traps with TIER_VIOLATION. -/
def Obligations.EngineRegisters : Prop :=
  (∀ (s : State) (e : EngineId) (kd : KReg) (sel : BitVec 10) (v : Word64), starts s e →
    csrValue s e sel.toNat = some v → ∃ t, exec (.csrRd e kd sel) s = .next t
      ∧ wrote s t e kd v ((engine s e).pc + 4) ∧ { t with engines := s.engines, perf := s.perf } = s)
  ∧ (∀ (s : State) (e : EngineId) (ka : KReg) (sel : BitVec 10), starts s e → tierOf s e = 0 → sel.toNat ≤ 0x27 →
    sel.toNat ≠ 7 → (sel = 0 → (kget s e ka).toNat / 4 % 4 ≠ 3) → ∃ t, exec (.csrWr e ka sel) s = .next t
      ∧ (sel ≠ 0 → (sel = 4 → (kget s e ka).toNat % 4 = 0) →
          csrValue t e sel.toNat = some (csrAfter (engine s e) sel.toNat (kget s e ka)))
      ∧ (sel = 0 → (engine t e).status = csrAfter (engine s e) 0 (kget s e ka))
      ∧ (engine t e).pc = (engine s e).pc + 4
      ∧ csrCleared { engine t e with pc := (engine s e).pc } sel.toNat = csrCleared (engine s e) sel.toNat
      ∧ (∀ f, f ≠ e.val → engine t f = engine s f) ∧ { t with engines := s.engines, perf := s.perf } = s)
  ∧ (∀ (s : State) (e : EngineId) (k : KReg) (sel : BitVec 10), starts s e → ¬ inTrap s e →
    (csrValue s e sel.toNat = none → ∃ t, exec (.csrRd e k sel) s = .next t
      ∧ trapEntry s t e 0x02 ((encSys 0 k 0 sel).setWidth 64) (engine s e).pc
      ∧ { t with engines := s.engines, perf := s.perf } = s)
    ∧ ((tierOf s e ≠ 0 ∨ sel.toNat = 7 ∨ 0x27 < sel.toNat) → ∃ t, exec (.csrWr e k sel) s = .next t
      ∧ trapEntry s t e 0x02 ((encSys 1 0 k sel).setWidth 64) (engine s e).pc
      ∧ { t with engines := s.engines, perf := s.perf } = s)
    ∧ (sel = 0 → tierOf s e = 0 → (kget s e k).toNat / 4 % 4 = 3 → ∃ t, exec (.csrWr e k sel) s = .next t
      ∧ trapEntry s t e 0x01 ((encSys 1 0 k sel).setWidth 64) (engine s e).pc
      ∧ { t with engines := s.engines, perf := s.perf } = s))

/-- R83, R84, R112, R119: 0x0000_0000 and 0xFFFF_FFFF are no instructions. A word that is none, and TRAP.CALL from T1
or T2, take a trap: the cause, the value and the address are saved, the tier and int_enable are saved and cleared,
in_trap is set, and the engine continues at KC_TVEC. TRAP.CALL in T0 is an illegal instruction. -/
def Obligations.TrapEntry : Prop :=
  (∀ e, decodeKrenus e 0 = none ∧ decodeKrenus e 0xFFFFFFFF = none)
  ∧ ∀ (s : State) (e : EngineId), starts s e → ¬ inTrap s e →
    (∀ word, decodeKrenus e word = none → ∃ t, exec (.illegalInstruction e word) s = .next t
      ∧ trapEntry s t e 0x01 (word.setWidth 64) (engine s e).pc ∧ { t with engines := s.engines, perf := s.perf } = s)
    ∧ (∀ sel, tierOf s e ≠ 0 → ∃ t, exec (.trapCall e sel) s = .next t
      ∧ trapEntry s t e 0x10 (sel.setWidth 64) ((engine s e).pc + 4)
      ∧ { t with engines := s.engines, perf := s.perf } = s)
    ∧ (∀ sel, tierOf s e = 0 → ∃ t, exec (.trapCall e sel) s = .next t
      ∧ trapEntry s t e 0x01 ((encSys 2 0 0 sel).setWidth 64) (engine s e).pc
      ∧ { t with engines := s.engines, perf := s.perf } = s)

/-- R86: a trap while in_trap is 1 stops the engine; on the Triad the vote mode becomes HALTED, on the time engine the
time state becomes HOLDOVER. R119: TRAP.RET in T0 returns to prev_tier, prev_int_enable and KC_EPC with in_trap 0, and
changes nothing else; in T1 and T2 it traps with TIER_VIOLATION. R87, R119: WAIT in T0 goes on to the next word where
an enabled source is pending and stops fetching otherwise; WAIT_END starts the engine again; an interrupt with
int_enable 1 takes its trap with an enabled source in KC_TVAL. Which source that is, where several are, is a free
value. Where the rules leave a point open it follows log entries 24 and 25. -/
def Obligations.TrapReturnAndWait : Prop :=
  (∀ (s : State) (e : EngineId) (word : BitVec 32), starts s e → inTrap s e → decodeKrenus e word = none →
     ∃ t, exec (.illegalInstruction e word) s = .next t
       ∧ (engine t e).run = .halted ∧ (∀ f, f ≠ e.val → engine t f = engine s f)
       ∧ (∀ k, kget t e k = kget s e k)
       ∧ (e = 0 → t.triad.mode = .halted) ∧ (e = 1 → t.time.state = .holdover) ∧ (e = 18 → t.boot.halted = true)
       ∧ (e ≠ 0 → eventRaised s t)
       ∧ t.press = s.press ∧ t.cave = s.cave ∧ t.regs = s.regs)
  ∧ (∀ (s : State) (e : EngineId), starts s e →
       (tierOf s e = 0 → ∃ t, exec (.trapRet e) s = .next t
         ∧ (engine t e).pc = (engine s e).epc
         ∧ (engine t e).status.toNat % 4 = (engine s e).status.toNat / 4 % 4
         ∧ (engine t e).status.toNat / 16 % 2 = (engine s e).status.toNat / 32 % 2
         ∧ ¬ inTrap t e
         ∧ { engine t e with pc := (engine s e).pc, status := (engine s e).status } = engine s e
         ∧ (∀ f, f ≠ e.val → engine t f = engine s f) ∧ { t with engines := s.engines, perf := s.perf } = s)
       ∧ (tierOf s e ≠ 0 → ¬ inTrap s e → ∃ t, exec (.trapRet e) s = .next t
         ∧ trapEntry s t e 0x02 ((encSys 3 0 0 0).setWidth 64) (engine s e).pc
         ∧ { t with engines := s.engines, perf := s.perf } = s))
  ∧ ((∀ (s : State) (e : EngineId), starts s e → tierOf s e = 0 → ∃ t, exec (.wait e) s = .next t
       ∧ (engine t e).run = (if intEnabled s e = 0 then .waiting else .running)
       ∧ (engine t e).pc = (engine s e).pc + 4
       ∧ { engine t e with pc := (engine s e).pc, run := (engine s e).run } = engine s e
       ∧ (∀ f, f ≠ e.val → engine t f = engine s f)
       ∧ { t with engines := s.engines, perf := s.perf, freeCtr := s.freeCtr } = s)
     ∧ (∀ (s : State) (e : EngineId), (engine s e).run = .waiting → bitOf (engine s e).status.toNat 4 = false →
       intEnabled s e ≠ 0 → ∃ t, exec (.waitEnd e) s = .next t
       ∧ engine t e = { engine s e with run := .running }
       ∧ (∀ f, f ≠ e.val → engine t f = engine s f) ∧ { t with engines := s.engines, freeCtr := s.freeCtr } = s)
     ∧ (∀ (s : State) (e : EngineId), (engine s e).run = .waiting ∨ canRun s e = true → bitOf (engine s e).status.toNat 4 = true →
       ¬ (e = 0 ∧ triadStalled s = true) → inStep s e → (∃ k < 16, bitOf (intEnabled s e) k = true) → ¬ inTrap s e →
       ∃ t k, exec (.interruptTaken e) s = .next t ∧ k < 16 ∧ bitOf (intEnabled s e) k = true
       ∧ trapEntry { s with engines := (setEngine e { engine s e with run := .running } s).engines } t e 0x20
           (BitVec.ofNat 64 k) (engine s e).pc
       ∧ { t with engines := s.engines, perf := s.perf, freeCtr := s.freeCtr } = s))

/-- R121, R105: COPY of n bytes whose source and destination pass their checks stores at ka the bytes that stood at
kb; n = 0 changes no memory, a check that fails traps with what it found and copies nothing, and n above 65,535 traps
with LENGTH_EXCEEDS_BUFFER and KC_TVAL = ka + 65,536. Where the rules leave a point open it follows log entries 21 and
22. -/
def Obligations.CopyResults : Prop :=
  ∀ (s : State) (e : EngineId) (ka kb kc : KReg), starts s e →
    let n := (kget s e kc).toNat
    let src := (kget s e kb).toNat
    let dst := (kget s e ka).toNat
    (n = 0 → ∃ t, exec (.copy e ka kb kc) s = .next t ∧ wentTo s t e ((engine s e).pc + 4)
      ∧ { t with engines := s.engines, perf := s.perf } = s)
    ∧ (0 < n → n < 65536 → spanFault s e .read src n = none → spanFault s e .write dst n = none →
      ∃ t, exec (.copy e ka kb kc) s = .next t
        ∧ stored s t e dst (loadBytes s e src n) ∧ (loadBytes s e src n).length = n ∧ wentOn s t e
        ∧ { t with engines := s.engines, press := s.press, cave := s.cave, perf := s.perf } = s)
    ∧ (∀ f, 0 < n → n < 65536 → ¬ inTrap s e →
      spanFault s e .read src n = some f ∨ (spanFault s e .read src n = none ∧ spanFault s e .write dst n = some f) →
      ∃ t, exec (.copy e ka kb kc) s = .next t
        ∧ trapEntry s t e f.1 (BitVec.ofNat 64 f.2) (engine s e).pc ∧ { t with engines := s.engines, perf := s.perf } = s)
    ∧ (65536 ≤ n → ¬ inTrap s e → ∃ t, exec (.copy e ka kb kc) s = .next t
      ∧ trapEntry s t e 0x0A (kget s e ka + 65536) (engine s e).pc ∧ { t with engines := s.engines, perf := s.perf } = s)

/-! ## Control registers (R12, R13, R467, R489) -/

/-- R12, R13, R467, R489: REGISTER_WRITE to a register that only stores. The RW bits take what the alias makes of them
at once; the RWL bits take it in the shadow where writes are open and are discarded otherwise; the live generation and
every other register stay; fresh parity ends a parity condition. A refused write stores nothing and raises an event. A
source without the right changes nothing. Where the rules leave a point open it follows log entries 62 and 95. -/
def Obligations.RegisterWrite : Prop :=
  ∀ (s : State) (src : Source) (addr val : BitVec 32) (b : Block) (r : Nat),
    let al := addrAlias addr.toNat
    (sourceMay s src true addr.toNat = false → exec (.registerWrite src addr val) s = .next s)
    ∧ (sourceMay s src true addr.toNat = true → accessOf s src addr.toNat = .mapped b r → plainReg b r = true →
      (specOf b r).rw ≠ 0 ∨ (rwlOpen s b = true ∧ (specOf b r).rwl ≠ 0) →
      (regRefusal s b r (regWr s b r al val.toNat) = none → ∃ t, exec (.registerWrite src addr val) s = .next t
        ∧ (∀ k, (specOf b r).rw.testBit k = true →
            (rwBits t b r).testBit k = (applyAlias al (storedBits s b r) val.toNat).testBit k)
        ∧ (rwlOpen s b = true → ∀ k, (specOf b r).rwl.testBit k = true →
            ((bankOf t (s.epoch.live + 1)).rwlBits b r).testBit k
              = (applyAlias al (storedBits s b r) val.toNat).testBit k)
        ∧ liveBank t = liveBank s
        ∧ (rwlOpen s b = false → t.bank0 = s.bank0 ∧ t.bank1 = s.bank1)
        ∧ flipsOf t b r = 0 ∧ otherRegsKept s t b r
        ∧ { t with regs := s.regs, bank0 := s.bank0, bank1 := s.bank1, perf := s.perf } = s)
      ∧ (∀ code, regRefusal s b r (regWr s b r al val.toNat) = some code → ∃ t,
        exec (.registerWrite src addr val) s = .next t
        ∧ eventRaised s t
        ∧ { t with ledger := s.ledger, perf := s.perf } = s))
    ∧ (sourceMay s src true addr.toNat = true → accessOf s src addr.toNat = .mapped b r → plainReg b r = true →
      (specOf b r).rw = 0 → (specOf b r).wo = 0 → rwlOpen s b = false →
      ∃ t, exec (.registerWrite src addr val) s = .next t ∧ { t with perf := s.perf } = s)

/-- R78, R80, R81, R120: LDC reads, and STC writes to a register that only stores, the control register at ka plus the
sign-extended offset; a sum outside 32 bits or a denied address traps with CTRL_DENIED, a misaligned one with
DATA_MISALIGNED, and nothing is reached. An address that no register has reads 0. STC in T2 traps with TIER_VIOLATION
and its word (R72). Where the rules leave a point open it follows log entry 91. -/
def Obligations.ControlAccess : Prop :=
  ∀ (s : State) (e : EngineId) (kd ka : KReg) (off : BitVec 16) (v : Vote), starts s e →
    let sum := ctrlSum s e ka off
    let a := (sum % 2 ^ 32).toNat
    ((0 ≤ sum ∧ sum < 2 ^ 32) → a % 4 = 0 → (e ≠ 0 ∨ v = .agree) →
      (sourceMay s (engineSource e) false a = true → ∃ t x, exec (.ldc e kd ka off v) s = .next t
        ∧ wrote s t e kd x ((engine s e).pc + 4)
        ∧ x = BitVec.ofNat 64 (ctlRead (engineSource e) a (perfEvent
            { code := 0x053, master := engineMaster e, tier := some (tierOf s e), addr := some a } s)).1
        ∧ (accessOf s (engineSource e) a = .unmapped → x = 0)
        ∧ { t with engines := s.engines, perf := s.perf, ledger := s.ledger, freeCtr := s.freeCtr,
                   regs := { t.regs with latch := s.regs.latch } } = s)
      ∧ (∀ b r, tierOf s e ≠ 2 → sourceMay s (engineSource e) true a = true →
        accessOf s (engineSource e) a = .mapped b r → plainReg b r = true → (specOf b r).rw ≠ 0 ∨ (rwlOpen s b = true ∧ (specOf b r).rwl ≠ 0) →
        regRefusal s b r (regWr s b r (addrAlias a) ((kget s e kd).toNat % 2 ^ 32)) = none →
        ∃ t, exec (.stc e kd ka off v) s = .next t ∧ wentTo s t e ((engine s e).pc + 4)
        ∧ (∀ k, (specOf b r).rw.testBit k = true → (rwBits t b r).testBit k
            = (applyAlias (addrAlias a) (storedBits s b r) ((kget s e kd).toNat % 2 ^ 32)).testBit k)
        ∧ (rwlOpen s b = true → ∀ k, (specOf b r).rwl.testBit k = true →
            ((bankOf t (s.epoch.live + 1)).rwlBits b r).testBit k
              = (applyAlias (addrAlias a) (storedBits s b r) ((kget s e kd).toNat % 2 ^ 32)).testBit k)
        ∧ liveBank t = liveBank s ∧ otherRegsKept s t b r
        ∧ { t with engines := s.engines, regs := s.regs, bank0 := s.bank0, bank1 := s.bank1, perf := s.perf } = s))
    ∧ ((sum < 0 ∨ 2 ^ 32 ≤ sum) → ¬ inTrap s e →
      (∃ t, exec (.ldc e kd ka off v) s = .next t ∧ trapEntry s t e 0x08 (BitVec.ofNat 64 a) (engine s e).pc
        ∧ { t with engines := s.engines, perf := s.perf } = s)
      ∧ (tierOf s e ≠ 2 → ∃ t, exec (.stc e kd ka off v) s = .next t
        ∧ trapEntry s t e 0x08 (BitVec.ofNat 64 a) (engine s e).pc ∧ { t with engines := s.engines, perf := s.perf } = s))
    ∧ (tierOf s e = 2 → ¬ inTrap s e → ∃ t, exec (.stc e kd ka off v) s = .next t
      ∧ trapEntry s t e 0x02 ((encImm 0x22 kd ka off).setWidth 64) (engine s e).pc
      ∧ { t with engines := s.engines, perf := s.perf } = s)
    ∧ ((0 ≤ sum ∧ sum < 2 ^ 32) → a % 4 ≠ 0 → ¬ inTrap s e →
      (∃ t, exec (.ldc e kd ka off v) s = .next t ∧ trapEntry s t e 0x05 (BitVec.ofNat 64 a) (engine s e).pc
        ∧ { t with engines := s.engines, perf := s.perf } = s)
      ∧ (tierOf s e ≠ 2 → ∃ t, exec (.stc e kd ka off v) s = .next t
        ∧ trapEntry s t e 0x05 (BitVec.ofNat 64 a) (engine s e).pc ∧ { t with engines := s.engines, perf := s.perf } = s))
    ∧ ((0 ≤ sum ∧ sum < 2 ^ 32) → a % 4 = 0 → ¬ inTrap s e →
      (sourceMay s (engineSource e) false a = false → ∃ t, exec (.ldc e kd ka off v) s = .next t
        ∧ trapEntry s t e 0x08 (BitVec.ofNat 64 a) (engine s e).pc ∧ { t with engines := s.engines, perf := s.perf } = s)
      ∧ (tierOf s e ≠ 2 → sourceMay s (engineSource e) true a = false → ∃ t, exec (.stc e kd ka off v) s = .next t
        ∧ trapEntry s t e 0x08 (BitVec.ofNat 64 a) (engine s e).pc ∧ { t with engines := s.engines, perf := s.perf } = s))

/-- R421, R429, R466: an acknowledge ends a held capture, a pop removes the head transmit record, a key load takes the
staging into its slot and empties it, a key clear erases its slot. Where the rules leave a point open it follows log
entries 97 and 101. -/
def Obligations.AcknowledgeAndKeys : Prop :=
  (∀ (s : State) (ch : Fin 3) (src : Source), accepts s src .refin (16 * ch.val + 7) 0 1 →
    ∃ t, exec (.refCapAck ch src) s = .next t ∧ refOf t ch.val = { refOf s ch.val with unread := false }
      ∧ (∀ x, x ≠ ch.val → refOf t x = refOf s x) ∧ { t.time with refs := s.time.refs } = s.time
      ∧ otherRegsKept s t .refin (16 * ch.val + 7) ∧ { t with time := s.time, regs := s.regs, perf := s.perf } = s)
  ∧ (∀ (s : State) (p : PipeId) (src : Source), accepts s src .tsq (64 * p.val + 6) 0 1 →
    ∃ t, exec (.tsqPop p src) s = .next t
      ∧ mget {} t.time.tsq p.val = { mget {} s.time.tsq p.val with recs := (mget {} s.time.tsq p.val).recs.drop 1 }
      ∧ (∀ x, x ≠ p.val → mget {} t.time.tsq x = mget {} s.time.tsq x) ∧ { t.time with tsq := s.time.tsq } = s.time
      ∧ otherRegsKept s t .tsq (64 * p.val + 6) ∧ { t with time := s.time, regs := s.regs, perf := s.perf } = s)
  ∧ (∀ (s : State) (slot : Fin 2) (src : Source), accepts s src .ctlport 9 0 (1 + 2 * slot.val) →
    ∃ t key, exec (.keyLoad slot src) s = .next t ∧ mget none t.ctl.keys slot.val = some key ∧ t.ctl.staging = []
      ∧ (∀ w < 8, (∀ i, mget 0 s.ctl.staging i < 2 ^ 32) → key / 2 ^ (32 * w) % 2 ^ 32 = mget 0 s.ctl.staging w)
      ∧ (∀ x, x ≠ slot.val → mget none t.ctl.keys x = mget none s.ctl.keys x)
      ∧ { t.ctl with keys := s.ctl.keys, staging := s.ctl.staging } = s.ctl
      ∧ otherRegsKept s t .ctlport 9 ∧ { t with ctl := s.ctl, regs := s.regs, perf := s.perf } = s)
  ∧ (∀ (s : State) (slot : Fin 2) (src : Source), accepts s src .ctlport 9 0 (4 + 2 * slot.val) →
    ∃ t, exec (.keyClear slot src) s = .next t ∧ mget none t.ctl.keys slot.val = none
      ∧ (∀ x, x ≠ slot.val → mget none t.ctl.keys x = mget none s.ctl.keys x)
      ∧ { t.ctl with keys := s.ctl.keys } = s.ctl
      ∧ otherRegsKept s t .ctlport 9 ∧ { t with ctl := s.ctl, regs := s.regs, perf := s.perf } = s)

/-- R514, R516, R519: the freeze field, a snapshot through snap, the clear of an overflow bit, the capture of a flow
counter's pair and its zeroing, each by a write of its register. A snapshot and a capture hold what the core clock found;
a wrap of the clock outlasts the clear, and the clock's updates outlast the zeroing (R63, R515). Where the rules leave a
point open it follows log entry 101. -/
def Obligations.CounterWrites : Prop :=
  (∀ (s : State) (freeze : Bool) (src : Source), accepts s src .perfctr 4096 0 (b2n freeze) →
    ∃ t, exec (.freezeWrite freeze src) s = .next t ∧ perfFrozen t = freeze
      ∧ otherRegsKept s t .perfctr 4096 ∧ { t with regs := s.regs, perf := s.perf } = s)
  ∧ (∀ (s : State) (src : Source), accepts s src .perfctr 4096 4 2 → s.perf.snapping = false →
    ∃ t, exec (.snapWrite src) s = .next t ∧ t.perf.snap = s.perf.startValue ∧ t.perf.snapOvf = s.perf.startOvf
      ∧ t.perf.ports = s.perf.startPorts ∧ t.perf.snapTime = coreTime s ∧ t.perf.snapping = true
      ∧ otherRegsKept s t .perfctr 4096 ∧ { t with regs := s.regs, perf := s.perf } = s)
  ∧ (∀ (s : State) (n : Fin 256) (src : Source), accepts s src .perfctr (16 * n.val + 9) 0 4 →
    ∃ t, exec (.ovfClear n src) s = .next t
      ∧ (bitOf t.perf.ovf n.val = true →
          perfFrozen s = false ∧ mget 0 t.perf.value n.val < mget 0 t.perf.clockAdds n.val)
      ∧ otherRegsKept s t .perfctr (16 * n.val + 9) ∧ { t with regs := s.regs, perf := s.perf } = s)
  ∧ (∀ (s : State) (r : Fin 4) (index : BitVec 32) (src : Source), accepts s src .flowctr (8 * r.val) 0 index.toNat →
    ∃ t, exec (.flowCapture r index src) s = .next t
      ∧ mget none t.perf.windows r.val = some (mget (0, 0) s.perf.startFlows (index.toNat % 2 ^ 21))
      ∧ otherRegsKept s t .flowctr (8 * r.val) ∧ { t with regs := s.regs, perf := s.perf } = s)
  ∧ (∀ (s : State) (r : Fin 4) (src : Source), accepts s src .flowctr (8 * r.val + 6) 0 1 →
    let i := rwField s .flowctr (8 * r.val) 20 0
    ∃ t, exec (.flowZero r src) s = .next t
      ∧ (mget (0, 0) s.flows i = mget (0, 0) s.perf.startFlows i → mget (0, 0) t.flows i = (0, 0))
      ∧ (∀ p b, mget (0, 0) s.flows i
            = (((mget (0, 0) s.perf.startFlows i).1 + p) % 2 ^ 64, ((mget (0, 0) s.perf.startFlows i).2 + b) % 2 ^ 64) →
          (mget (0, 0) s.perf.startFlows i).1 < 2 ^ 64 → (mget (0, 0) s.perf.startFlows i).2 < 2 ^ 64 →
          p < 2 ^ 64 → b < 2 ^ 64 → mget (0, 0) t.flows i = (p, b))
      ∧ (∀ j, j ≠ i → mget (0, 0) t.flows j = mget (0, 0) s.flows j)
      ∧ otherRegsKept s t .flowctr (8 * r.val + 6) ∧ { t with flows := s.flows, regs := s.regs, perf := s.perf } = s)

/-- R254, R256, R270, R278: go of VAT_FILL_CTL starts a cell copy command with the fields of its registers, and its
end copies the bytes between scratch and cell and sets the link word, or refuses and copies nothing; VAT_SEG_MAP and
VAT_POOL6_CFG take a value that moves no held buffer. Where the rules leave a point open it follows log entries 96 and
101. -/
def Obligations.VatRegisterCommands : Prop :=
  (∀ (s : State) (src : Source), accepts s src .vat 5 4 0x400 → s.vat.fill = none →
    ∃ t j, exec (.vatFillGo src) s = .next t ∧ t.vat.fill = some j ∧ t.vat.fillRefused = false
      ∧ j.cell = rwField s .vat 2 20 0 ∧ j.next = rwField s .vat 3 20 0 ∧ j.src = rwField s .vat 4 23 0
      ∧ j.owner = ownerOf s eTriad
      ∧ { t.vat with fill := s.vat.fill, fillRefused := s.vat.fillRefused } = s.vat
      ∧ otherRegsKept s t .vat 5 ∧ { t with vat := s.vat, regs := s.regs, perf := s.perf } = s)
  ∧ (∀ (s : State) (j : FillJob), s.vat.fill = some j → fillRefusedNow s j = false →
    ∃ t, exec .vatFillDone s = .next t ∧ t.vat.fill = none ∧ t.vat.fillRefused = false
      ∧ mget noLink t.press.link j.cell = j.next
      ∧ (∀ i, i ≠ j.cell → mget noLink t.press.link i = mget noLink s.press.link i)
      ∧ (j.toScratch = true → t.press.cells = s.press.cells
        ∧ bytesStored s.press.scratch t.press.scratch j.src (memRead s.press.cells (256 * j.cell) j.length))
      ∧ (j.toScratch = false → t.press.scratch = s.press.scratch
        ∧ bytesStored s.press.cells t.press.cells (256 * j.cell) (memRead s.press.scratch j.src j.length))
      ∧ { t.vat with fill := s.vat.fill, fillRefused := s.vat.fillRefused } = s.vat
      ∧ { t with vat := s.vat, press := s.press } = s)
  ∧ (∀ (s : State) (j : FillJob), s.vat.fill = some j → fillRefusedNow s j = true →
    ∃ t, exec .vatFillDone s = .next t ∧ t.vat.fill = none ∧ t.vat.fillRefused = true
      ∧ { t.vat with fill := s.vat.fill, fillRefused := s.vat.fillRefused } = s.vat ∧ { t with vat := s.vat } = s)
  ∧ (∀ (s : State) (r : Fin 16) (val : BitVec 32) (src : Source), accepts s src .vat (16 + r.val) 0 val.toNat →
    mapMovesHeld s (16 + r.val) val.toNat = false ∧
    ∃ t, exec (.vatSegMapWrite r val src) s = .next t
      ∧ (∀ j < 16, segPool t (16 * r.val + j) = 1 + val.toNat / 4 ^ j % 4)
      ∧ otherRegsKept s t .vat (16 + r.val) ∧ { t with regs := s.regs, perf := s.perf } = s)
  ∧ (∀ (s : State) (val : BitVec 32) (src : Source), accepts s src .vat 1 0 val.toNat →
    ∃ t, exec (.vatPool6CfgWrite val src) s = .next t ∧ pool6Per t = val.toNat % 1024
      ∧ otherRegsKept s t .vat 1 ∧ { t with regs := s.regs, perf := s.perf } = s)

/-- R436, R439, R533: a write of TRIAD_RETURN starts the resync of a retired channel, SCRAPER_PIPE_RESTORE lets a pipe
that was held down restart, and trip_release ends the hold of a thermal trip. Where the rules leave a point open it
follows log entry 101. -/
def Obligations.RecoveryWrites : Prop :=
  (∀ (s : State) (val : BitVec 32) (src : Source), accepts s src .triad 6 0 val.toNat → val.toNat % 8 ≠ 0 →
    s.triad.mode ≠ .halted →
    ∃ t c, exec (.triadReturn val src) s = .next t ∧ c < 3 ∧ bitOf val.toNat c = true
      ∧ (∀ k < c, bitOf val.toNat k = false)
      ∧ t.triad.mode = .resync ∧ t.triad.resyncing = some (c, s.now) ∧ t.triad.retired = s.triad.retired - val.toNat % 8
      ∧ { t.triad with mode := s.triad.mode, resyncing := s.triad.resyncing, retired := s.triad.retired,
                       faultHeld := s.triad.faultHeld } = s.triad
      ∧ otherRegsKept s t .triad 6 ∧ { t with triad := s.triad, regs := s.regs, perf := s.perf } = s)
  ∧ (∀ (s : State) (val : BitVec 32) (src : Source), accepts s src .scraper 3 0 val.toNat →
    ∃ t, exec (.scraperPipeRestore val src) s = .next t
      ∧ (∀ p < 32, bitOf val.toNat p = true → pipeOf t p = { pipeOf s p with heldDown := false })
      ∧ (∀ p, p < 32 ∧ bitOf val.toNat p = false ∨ 32 ≤ p → pipeOf t p = pipeOf s p)
      ∧ otherRegsKept s t .scraper 3 ∧ { t with pipes := s.pipes, regs := s.regs, perf := s.perf } = s)
  ∧ (∀ (s : State) (src : Source), accepts s src .sensor 3 4 0x100 →
    thermalAlarm s = false ∧
    ∃ t, exec (.tripRelease src) s = .next t ∧ t.power = { s.power with tripHold := false }
      ∧ otherRegsKept s t .sensor 3 ∧ { t with power := s.power, regs := s.regs, perf := s.perf } = s)

/-! ## Epochs, counters, faults and audits -/

/-- R136, R137: EPOCH.STAGE, EPOCH.COMMIT, EPOCH.COMMIT.AT, EPOCH.CANCEL and EPOCH.STATUS, each where it is accepted
and where it is turned away, with what it leaves unchanged. A stage that opens copies the live registers and indexed
tables into the shadow. Where the rules leave a point open it follows log entry 65. -/
def Obligations.EpochInstructions : Prop :=
  (∀ (s : State) (e : EngineId) (kd : KReg), startsDev s e .epoch →
    let taken := s.epoch.shadowOpen = true ∨ s.epoch.stagePending = true ∨ ∃ b, s.epoch.commit = .cutting b
    (taken → ∃ t, exec (.epochStage e kd) s = .next t ∧ wrote s t e kd 0x09 ((engine s e).pc + 4)
      ∧ { t with engines := s.engines, perf := s.perf } = s)
    ∧ (¬ taken → stageReady s = true → ∃ t, exec (.epochStage e kd) s = .next t
      ∧ wrote s t e kd 0 ((engine s e).pc + 4)
      ∧ t.epoch = { s.epoch with shadowOpen := true, stagePending := false }
      ∧ bankOf t s.epoch.live = bankOf s s.epoch.live ∧ bankOf t (s.epoch.live + 1) = bankOf s s.epoch.live
      ∧ { t with engines := s.engines, epoch := s.epoch, bank0 := s.bank0, bank1 := s.bank1, l2 := s.l2,
                 routes := s.routes, perf := s.perf } = s)
    ∧ (¬ taken → stageReady s = false → ∃ t, exec (.epochStage e kd) s = .next t
      ∧ wrote s t e kd 0x08 ((engine s e).pc + 4) ∧ t.epoch = { s.epoch with stagePending := true }
      ∧ { t with engines := s.engines, epoch := s.epoch, perf := s.perf } = s))
  ∧ (∀ (s : State) (e : EngineId) (kd : KReg), startsDev s e .epoch →
    (s.epoch.commit = .none → s.epoch.shadowOpen = true → ∃ t, exec (.epochCommit e kd) s = .next t
      ∧ wrote s t e kd (BitVec.ofNat 64 (0x08 + (s.epoch.live + 1) % 2 ^ 16 * 2 ^ 16)) ((engine s e).pc + 4)
      ∧ t.epoch = { s.epoch with commit := .pending }
      ∧ { t with engines := s.engines, epoch := s.epoch, perf := s.perf } = s)
    ∧ (s.epoch.commit = .none → s.epoch.shadowOpen = false → ∃ t, exec (.epochCommit e kd) s = .next t
      ∧ wrote s t e kd 0x07 ((engine s e).pc + 4) ∧ { t with engines := s.engines, perf := s.perf } = s)
    ∧ (s.epoch.commit ≠ .none → ∃ t, exec (.epochCommit e kd) s = .next t
      ∧ wrote s t e kd 0x09 ((engine s e).pc + 4) ∧ { t with engines := s.engines, perf := s.perf } = s))
  ∧ (∀ (s : State) (e : EngineId) (kd ka : KReg) (due : Nat), startsDev s e .epoch →
    let a := (kget s e ka).toNat
    recordFault s e .read a = none → recordTime (loadBytes s e a 16) = some due →
    ((s.epoch.commit = .none ∨ ∃ b, s.epoch.commit = .cutting b) → s.epoch.shadowOpen = true →
      coreTime s + (500 * fullerQueue s + 10000) * 2 ^ 16 ≤ due → ∃ t, exec (.epochCommitAt e kd ka) s = .next t
      ∧ wrote s t e kd (BitVec.ofNat 64 (0x08 + (s.epoch.live + 1) % 2 ^ 16 * 2 ^ 16)) ((engine s e).pc + 4)
      ∧ t.epoch = { s.epoch with commit := .scheduled due }
      ∧ { t with engines := s.engines, epoch := s.epoch, perf := s.perf } = s)
    ∧ ((s.epoch.commit = .none ∨ ∃ b, s.epoch.commit = .cutting b) → s.epoch.shadowOpen = true → due ≤ coreTime s →
      ∃ t, exec (.epochCommitAt e kd ka) s = .next t ∧ wrote s t e kd 0x0B ((engine s e).pc + 4)
      ∧ { t with engines := s.engines, perf := s.perf } = s)
    ∧ ((s.epoch.commit = .pending ∨ ∃ d, s.epoch.commit = .scheduled d) →
      ∃ t, exec (.epochCommitAt e kd ka) s = .next t ∧ wrote s t e kd 0x09 ((engine s e).pc + 4)
      ∧ { t with engines := s.engines, perf := s.perf } = s))
  ∧ (∀ (s : State) (e : EngineId) (kd : KReg), startsDev s e .epoch →
    (∀ due, s.epoch.commit = .scheduled due → coreTime s < due → ∃ t, exec (.epochCancel e kd) s = .next t
      ∧ wrote s t e kd 0 ((engine s e).pc + 4) ∧ t.epoch = { s.epoch with commit := .none }
      ∧ (s.boot.committing ≠ some false → t.boot = s.boot)
      ∧ { t with engines := s.engines, epoch := s.epoch, boot := s.boot, perf := s.perf } = s)
    ∧ ((∀ due, s.epoch.commit = .scheduled due → due ≤ coreTime s) → ∃ t, exec (.epochCancel e kd) s = .next t
      ∧ wrote s t e kd 0x05 ((engine s e).pc + 4) ∧ { t with engines := s.engines, perf := s.perf } = s))
  ∧ (∀ (s : State) (e : EngineId) (kd : KReg), startsDev s e .epoch → s.epoch.live < 2 ^ 16 →
    ∃ t v, exec (.epochStatus e kd) s = .next t ∧ wrote s t e kd (BitVec.ofNat 64 (v * 2 ^ 16)) ((engine s e).pc + 4)
    ∧ v % 2 ^ 16 = s.epoch.live ∧ v.testBit 16 = s.epoch.shadowOpen ∧ v.testBit 17 = s.epoch.stagePending
    ∧ (v.testBit 18 = true ↔ ∃ b, s.epoch.commit = .cutting b)
    ∧ (v.testBit 19 = true ↔ ∃ d, s.epoch.commit = .scheduled d) ∧ v < 2 ^ 20
    ∧ { t with engines := s.engines, perf := s.perf } = s)

/-- R136, R137, R491: the commands of EPOCH_CMD, each where it is accepted, leave in EPOCH_RESULT the code the
instruction of the same name returns and have its effect. Where the rules leave a point open it follows log entries 65
and 100. -/
def Obligations.EpochCommands : Prop :=
  (∀ (s : State) (src : Source), accepts s src .epoch 2 0 1 → s.epoch.shadowOpen = false → s.epoch.stagePending = false →
    (∀ b, s.epoch.commit ≠ .cutting b) → ∃ t, exec (.epochCmdStage src) s = .next t
    ∧ (stageReady s = true → t.epoch = { s.epoch with shadowOpen := true, stagePending := false, result := 0,
                                                      resultEpoch := 0 }
      ∧ bankOf t s.epoch.live = bankOf s s.epoch.live ∧ bankOf t (s.epoch.live + 1) = bankOf s s.epoch.live)
    ∧ (stageReady s = false → t.epoch = { s.epoch with stagePending := true, result := 0x08, resultEpoch := 0 }
      ∧ t.bank0 = s.bank0 ∧ t.bank1 = s.bank1 ∧ t.l2 = s.l2 ∧ t.routes = s.routes)
    ∧ otherRegsKept s t .epoch 2
    ∧ { t with epoch := s.epoch, bank0 := s.bank0, bank1 := s.bank1, l2 := s.l2, routes := s.routes, regs := s.regs,
               perf := s.perf } = s)
  ∧ (∀ (s : State) (src : Source), accepts s src .epoch 2 0 2 → s.epoch.commit = .none → s.epoch.shadowOpen = true →
    ∃ t, exec (.epochCmdCommit src) s = .next t
    ∧ t.epoch = { s.epoch with commit := .pending, result := 0x08, resultEpoch := (s.epoch.live + 1) % 2 ^ 16 }
    ∧ otherRegsKept s t .epoch 2 ∧ { t with epoch := s.epoch, regs := s.regs, perf := s.perf } = s)
  ∧ (∀ (s : State) (src : Source), accepts s src .epoch 2 0 4 →
    let due := (rwField s .epoch 5 31 0 + rwField s .epoch 6 31 0 * 2 ^ 32) * (10 ^ 9 * 2 ^ 16)
      + rwField s .epoch 4 29 0 * 2 ^ 16
    s.epoch.commit = .none → s.epoch.shadowOpen = true → coreTime s + (500 * fullerQueue s + 10000) * 2 ^ 16 ≤ due →
    ∃ t, exec (.epochCmdCommitAt src) s = .next t
    ∧ t.epoch = { s.epoch with commit := .scheduled due, result := 0x08, resultEpoch := (s.epoch.live + 1) % 2 ^ 16 }
    ∧ otherRegsKept s t .epoch 2 ∧ { t with epoch := s.epoch, regs := s.regs, perf := s.perf } = s)
  ∧ (∀ (s : State) (src : Source) (due : Nat), accepts s src .epoch 2 0 8 → s.epoch.commit = .scheduled due →
    coreTime s < due → ∃ t, exec (.epochCmdCancel src) s = .next t
    ∧ t.epoch = { s.epoch with commit := .none, result := 0, resultEpoch := 0 }
    ∧ (s.boot.committing ≠ some false → t.boot = s.boot)
    ∧ otherRegsKept s t .epoch 2 ∧ { t with epoch := s.epoch, boot := s.boot, regs := s.regs, perf := s.perf } = s)

/-- R59, R60, R136, R241: a pending stage opens once it may; a commit whose placements have drained, and a scheduled
one whose time is reached, make the next epoch live and close the shadow; a pipe that cuts over stamps the live epoch,
and the commit ends when every pipe has. Where the rules leave a point open it follows log entries 62, 63 and 64. -/
def Obligations.CommitEffects : Prop :=
  (∀ (s : State), s.epoch.stagePending = true → stageReady s = true → s.boot.mouldWait = none → ∃ t, exec .stageOpen s = .next t
    ∧ t.epoch = { s.epoch with shadowOpen := true, stagePending := false }
    ∧ bankOf t s.epoch.live = bankOf s s.epoch.live ∧ bankOf t (s.epoch.live + 1) = bankOf s s.epoch.live
    ∧ eventRaised s t
    ∧ { t with epoch := s.epoch, bank0 := s.bank0, bank1 := s.bank1, l2 := s.l2, routes := s.routes,
               ledger := s.ledger } = s)
  ∧ (∀ (s : State), s.epoch.commit = .pending → s.routes.queue0 = [] → s.routes.queue1 = [] →
    ∃ t, exec .commitEffect s = .next t ∧ t.epoch.live = (s.epoch.live + 1) % 2 ^ 16 ∧ t.epoch.shadowOpen = false
    ∧ (t.epoch.commit = .none ∨ t.epoch.commit = .cutting false ∧ t.engines = s.engines))
  ∧ (∀ (s : State) (due : Nat), s.epoch.commit = .scheduled due → due ≤ coreTime s → s.routes.queue0 = [] →
    s.routes.queue1 = [] →
    ∃ t, exec .commitAtTime s = .next t ∧ t.epoch.live = (s.epoch.live + 1) % 2 ^ 16 ∧ t.epoch.shadowOpen = false
    ∧ (t.epoch.commit = .none ∨ t.epoch.commit = .cutting true ∧ t.engines = s.engines))
  ∧ (∀ (s : State) (p : PipeId) (b : Bool), s.epoch.commit = .cutting b → pipeEp s p ≠ s.epoch.live →
    ∃ t, exec (.pipeCutover p) s = .next t ∧ pipeEp t p = s.epoch.live ∧ t.epoch.live = s.epoch.live
    ∧ (∀ k, k ≠ p.val → pipeEp t k = pipeEp s k)
    ∧ (t.epoch.commit = .none ↔ ∀ k < 32, k ≠ p.val → pipeEp s k = s.epoch.live)
    ∧ (t.epoch.commit ≠ .none → t.engines = s.engines))

/-- R138, R514 to R516: CTR.FREEZE, CTR.SNAP, CTR.RD, CTR.OVF and CTR.WR with the counter domain on; a snapshot's end;
an export whose interval has passed takes the next sequence number or counts as skipped. A snapshot holds what the core
clock found (R63). The counters' own values are stated with the counters frozen, because the instructions themselves are
counted events. The core copy of the time is log entry 150's. Where the rules leave a point
open it follows log entries 78 and 99. -/
def Obligations.CounterInstructions : Prop :=
  (∀ (s : State) (e : EngineId) (kd ka : KReg), startsDev s e .ctr → domainOn s 13 = true →
    ((kget s e ka).toNat < 2 → ∃ t, exec (.ctrFreeze e kd ka) s = .next t ∧ wrote s t e kd 0 ((engine s e).pc + 4)
      ∧ perfFrozen t = (kget s e ka).toNat.testBit 0
      ∧ (∀ b r, regKey b r ≠ regKey .perfctr 4096 → rwBits t b r = rwBits s b r)
      ∧ { t.regs with rw := s.regs.rw } = s.regs ∧ { t with engines := s.engines, regs := s.regs, perf := s.perf } = s)
    ∧ (2 ≤ (kget s e ka).toNat → ∃ t, exec (.ctrFreeze e kd ka) s = .next t
      ∧ wrote s t e kd 0x0A ((engine s e).pc + 4) ∧ { t with engines := s.engines, perf := s.perf } = s))
  ∧ (∀ (s : State) (e : EngineId) (kd : KReg), startsDev s e .ctr → domainOn s 13 = true →
    (s.perf.snapping = false → ∃ t, exec (.ctrSnap e kd) s = .next t ∧ wrote s t e kd 0 ((engine s e).pc + 4)
      ∧ t.perf.snap = s.perf.startValue ∧ t.perf.snapOvf = s.perf.startOvf ∧ t.perf.ports = s.perf.startPorts
      ∧ t.perf.snapTime = coreTime s ∧ t.perf.snapping = true
      ∧ { t with engines := s.engines, perf := s.perf } = s)
    ∧ (s.perf.snapping = true → ∃ t, exec (.ctrSnap e kd) s = .next t ∧ wrote s t e kd 0x09 ((engine s e).pc + 4)
      ∧ t.perf.snap = s.perf.snap ∧ t.perf.snapTime = s.perf.snapTime
      ∧ { t with engines := s.engines, perf := s.perf } = s))
  ∧ (∀ (s : State) (e : EngineId) (kd ka : KReg), startsDev s e .ctr →
    let a := (kget s e ka).toNat
    (a < 512 → ∃ t, exec (.ctrRd e kd ka) s = .next t
      ∧ wrote s t e kd (BitVec.ofNat 64 (mget 0 (if a.testBit 8 then s.perf.snap else s.perf.value) (a % 256)))
          ((engine s e).pc + 4)
      ∧ { t with engines := s.engines, perf := s.perf } = s)
    ∧ (512 ≤ a → ∃ t, exec (.ctrRd e kd ka) s = .next t ∧ wrote s t e kd 0 ((engine s e).pc + 4) ∧ eventRaised s t
      ∧ { t with engines := s.engines, ledger := s.ledger, perf := s.perf } = s))
  ∧ (∀ (s : State) (e : EngineId) (kd ka : KReg), startsDev s e .ctr →
    let a := (kget s e ka).toNat
    (a < 1024 → ∃ t, exec (.ctrOvf e kd ka) s = .next t
      ∧ wrote s t e kd (if s.perf.ovf.testBit (a % 256) then 0x10000 else 0) ((engine s e).pc + 4)
      ∧ (perfFrozen s = true → ∀ n, t.perf.ovf.testBit n
          = if n = a % 256 ∧ a.testBit 9 = true then false else s.perf.ovf.testBit n)
      ∧ { t with engines := s.engines, perf := s.perf } = s)
    ∧ (1024 ≤ a → ∃ t, exec (.ctrOvf e kd ka) s = .next t ∧ wrote s t e kd 0x0A ((engine s e).pc + 4)
      ∧ { t with engines := s.engines, perf := s.perf } = s))
  ∧ (∀ (s : State) (e : EngineId) (kd ka kb : KReg), startsDev s e .ctr → domainOn s 13 = true →
    let a := (kget s e ka).toNat
    (a < 256 → ∃ t, exec (.ctrWr e kd ka kb) s = .next t ∧ wrote s t e kd 0 ((engine s e).pc + 4)
      ∧ (perfFrozen s = true → t.perf.value = mset 0 s.perf.value a (kget s e kb).toNat)
      ∧ t.perf.snap = s.perf.snap ∧ { t with engines := s.engines, perf := s.perf } = s)
    ∧ (256 ≤ a → ∃ t, exec (.ctrWr e kd ka kb) s = .next t ∧ wrote s t e kd 0x0A ((engine s e).pc + 4)
      ∧ t.perf.snap = s.perf.snap ∧ { t with engines := s.engines, perf := s.perf } = s))
  ∧ (∀ (s : State), ∃ t, exec .portSnapshotReady s = .next t ∧ t.perf.snapping = false
    ∧ { t.perf with snapping := s.perf.snapping } = s.perf ∧ { t with perf := s.perf } = s)
  ∧ (∀ (s : State), domainOn s 13 = true → rwField s .perfctr 4112 15 0 ≠ 0 →
    s.perf.exportFrom + rwField s .perfctr 4112 15 0 * 10 ^ 9 ≤ s.now → ∃ t, exec .telemetryExport s = .next t
    ∧ t.perf.exportFrom = s.perf.exportFrom + rwField s .perfctr 4112 15 0 * 10 ^ 9
    ∧ (t.perf.exportSeq = (s.perf.exportSeq + 1) % 2 ^ 32 ∨ t.perf.exportSkipped = (s.perf.exportSkipped + 1) % 2 ^ 32)
    ∧ { t with perf := s.perf, vat := s.vat, cave := s.cave, freeCtr := s.freeCtr } = s)

/-- R139, R140: FAULT.RAISE enters the event with its code and payload; FAULT.DECLARE answers NOT_FOUND, BUSY or
PENDING, and a declared party waits for the Scraper; AUDIT.RUN starts a pass or is turned away; AUDIT_DONE ends it
with an event. Where the rules leave a point open it follows log entry 84. -/
def Obligations.FaultAndAudit : Prop :=
  (∀ (s : State) (e : EngineId) (kd ka : KReg), startsDev s e .faultRaise →
    let v := (kget s e ka).toNat
    (tierOf s e ≠ 1 ∨ 0xF000 ≤ v % 2 ^ 16 → ∃ t, exec (.faultRaise e kd ka) s = .next t
      ∧ wrote s t e kd 0 ((engine s e).pc + 4) ∧ eventRaised s t
      ∧ (s.ledger.fifo.length < 64 → ∃ ev ∈ t.ledger.fifo, ev.code = v % 2 ^ 16 ∧ ev.payload = v / 2 ^ 16
          ∧ ev.place = enginePlace e)
      ∧ { t with engines := s.engines, ledger := s.ledger, perf := s.perf } = s)
    ∧ (tierOf s e = 1 → v % 2 ^ 16 < 0xF000 → ¬ inTrap s e → ∃ t x, exec (.faultRaise e kd ka) s = .next t
      ∧ trapEntry s t e 0x02 x (engine s e).pc ∧ { t with engines := s.engines, perf := s.perf } = s))
  ∧ (∀ (s : State) (e : EngineId) (kd ka : KReg), startsDev s e .faultDeclare →
    let o := (kget s e ka).toNat
    (isPending s o = false → holdsAnything s o = true → o < 2 ^ 32 →
      (s.scraper.pending.filter (fun p => p.2)).length < 64 → isPipeName o = false →
      ∃ t, exec (.faultDeclare e kd ka) s = .next t ∧ wrote s t e kd 0x08 ((engine s e).pc + 4)
      ∧ t.scraper = { s.scraper with pending := s.scraper.pending ++ [(o, true)] }
      ∧ (∀ n, n ∈ t.vat.declared ↔ n ∈ s.vat.declared ∨ n = o)
      ∧ { t.vat with declared := s.vat.declared } = s.vat
      ∧ { t with engines := s.engines, scraper := s.scraper, vat := s.vat, perf := s.perf } = s)
    ∧ (isPending s o = false → holdsAnything s o = true → o < 2 ^ 32 →
      (s.scraper.pending.filter (fun p => p.2)).length < 64 → isPipeName o = true → o % 2 ^ 28 < 32 →
      ∃ t, exec (.faultDeclare e kd ka) s = .next t ∧ wrote s t e kd 0x08 ((engine s e).pc + 4)
      ∧ t.scraper = { s.scraper with pending := s.scraper.pending ++ [(o, true)] }
      ∧ (pipeOf t (o % 2 ^ 28)).faulted = true)
    ∧ (o < 2 ^ 32 → isPending s o = true → ∃ t, exec (.faultDeclare e kd ka) s = .next t
      ∧ wrote s t e kd 0x09 ((engine s e).pc + 4) ∧ { t with engines := s.engines, perf := s.perf } = s)
    ∧ (o < 2 ^ 32 → isPending s o = false → holdsAnything s o = false → ∃ t, exec (.faultDeclare e kd ka) s = .next t
      ∧ wrote s t e kd 0x05 ((engine s e).pc + 4) ∧ { t with engines := s.engines, perf := s.perf } = s))
  ∧ (∀ (s : State) (e : EngineId) (kd ka : KReg), startsDev s e .audit →
    let v := (kget s e ka).toNat
    (1 ≤ v → v < 64 → s.triad.audit = none → ∃ t, exec (.auditRun e kd ka) s = .next t
      ∧ wrote s t e kd 0x08 ((engine s e).pc + 4) ∧ t.triad = { s.triad with audit := some v }
      ∧ { t with engines := s.engines, triad := s.triad, perf := s.perf } = s)
    ∧ (1 ≤ v → v < 64 → s.triad.audit ≠ none → ∃ t, exec (.auditRun e kd ka) s = .next t
      ∧ wrote s t e kd 0x09 ((engine s e).pc + 4) ∧ { t with engines := s.engines, perf := s.perf } = s)
    ∧ (v = 0 → ∃ t, exec (.auditRun e kd ka) s = .next t
      ∧ wrote s t e kd 0x0D ((engine s e).pc + 4) ∧ { t with engines := s.engines, perf := s.perf } = s)
    ∧ (64 ≤ v → ∃ t, exec (.auditRun e kd ka) s = .next t
      ∧ wrote s t e kd 0x0A ((engine s e).pc + 4) ∧ { t with engines := s.engines, perf := s.perf } = s))
  ∧ (∀ (s : State) (scopes : Nat), s.triad.audit = some scopes → scopes.testBit 1 = false →
    ∃ t, exec (.auditDone []) s = .next t ∧ t.triad = { s.triad with audit := none } ∧ eventRaised s t
    ∧ { t with triad := s.triad, ledger := s.ledger } = s)
  ∧ (∀ (s : State) (scopes : Nat) (found : List AuditFinding), s.triad.audit = some scopes →
    ∃ t, exec (.auditDone found) s = .next t ∧ t.triad.audit = none)

/-! ## The Vat -/

namespace Sys2Proof.Claims

/-- The records of every buffer but `h` are as they were. -/
def otherRecordsKept (s t : State) (h : Nat) : Prop :=
  ∀ k, k ≠ h → mhas t.vat.held k = mhas s.vat.held k ∧ mget {} t.vat.held k = mget {} s.vat.held k

/-- Buffer `h` of pool `p` was free, and `o` now holds it once as its last owner (R258). -/
def granted (s t : State) (p o h : Nat) : Prop :=
  hPool h = p ∧ h < 2 ^ 32 ∧ mhas s.vat.held h = false
    ∧ mhas t.vat.held h = true ∧ mget {} t.vat.held h = { owner := o, holds := 1, chain := 0 } ∧ otherRecordsKept s t h

/-- One hold of buffer `g`, whose record is `r`, has ended: the last returns it and the cells of its chain to their pool
(R131, R258). `ended` is whether the last owner's own hold has ended then; its name stays. -/
def holdEnded (s t : State) (g : Nat) (r : HoldRec) (ended : Bool) : Prop :=
  (r.holds ≤ 1 → mhas t.vat.held g = false
      ∧ ∀ k, k ≠ g → (hPool g ≠ 0 ∨ (mget {} s.vat.held k).chain ≠ hIdx g + 1) →
        mhas t.vat.held k = mhas s.vat.held k ∧ mget {} t.vat.held k = mget {} s.vat.held k)
    ∧ (1 < r.holds → mhas t.vat.held g = true ∧ mget {} t.vat.held g = { r with ended := ended, holds := r.holds - 1 }
      ∧ otherRecordsKept s t g)

end Sys2Proof.Claims

open Sys2Proof.Claims in
/-- R130, R257, R264 to R266: VAT.ALLOC takes a free buffer of the smallest pool that fits, or once of the next where
spill is enabled, and VAT.ALLOC.P of the pool it names, while the control class leaves the four floors untouched;
otherwise it answers EMPTY and the pool counts it. A size of 0 answers NONE; a size above 65,536, a pool above 7 or an
owner name that may not claim answers RANGE. Which free buffer is taken is a free value. Where the rules leave a point
open it follows log entries 14 and 28. -/
def Obligations.BufferClaims : Prop :=
  (∀ (s : State) (e : EngineId) (kd ka : KReg), startsDev s e .vat →
    let size := (kget s e ka).toNat
    let o := (engine s e).owner.toNat % 2 ^ 32
    let p := if size ≤ 128 then 1 else if size ≤ 1024 then 2 else if size ≤ 8192 then 3 else 4
    let spills := p < 4 ∧ rwlField s .vat 0 (p - 1) (p - 1) ≠ 0
    (vatOwnerOk o = true → 1 ≤ size → size ≤ 65536 → isDeclared s o = false →
      (canClaim s p 4 1 = true → ∃ t h, exec (.vatAlloc e kd ka) s = .next t ∧ granted s t p o h
        ∧ wrote s t e kd (BitVec.ofNat 64 (h * 2 ^ 16)) ((engine s e).pc + 4) ∧ { t.vat with held := s.vat.held } = s.vat
        ∧ { t with engines := s.engines, vat := s.vat, freeCtr := s.freeCtr, perf := s.perf } = s)
      ∧ (canClaim s p 4 1 = false → spills → canClaim s (p + 1) 4 1 = true →
        ∃ t h, exec (.vatAlloc e kd ka) s = .next t ∧ granted s t (p + 1) o h
        ∧ wrote s t e kd (BitVec.ofNat 64 (h * 2 ^ 16)) ((engine s e).pc + 4)
        ∧ t.vat.spills = (s.vat.spills + 1) % 2 ^ 32
        ∧ { t.vat with held := s.vat.held, spills := s.vat.spills } = s.vat
        ∧ { t with engines := s.engines, vat := s.vat, freeCtr := s.freeCtr, perf := s.perf } = s)
      ∧ (canClaim s p 4 1 = false → ¬ spills →
        ∃ t, exec (.vatAlloc e kd ka) s = .next t
        ∧ wrote s t e kd 0x01 ((engine s e).pc + 4)
        ∧ mget 0 t.vat.empties p = (mget 0 s.vat.empties p + 1) % 2 ^ 32
        ∧ (∀ k, k ≠ p → mget 0 t.vat.empties k = mget 0 s.vat.empties k)
        ∧ { t.vat with empties := s.vat.empties } = s.vat
        ∧ { t with engines := s.engines, vat := s.vat, perf := s.perf } = s))
    ∧ (vatOwnerOk o = true → size = 0 → ∃ t, exec (.vatAlloc e kd ka) s = .next t
      ∧ wrote s t e kd 0x0D ((engine s e).pc + 4) ∧ { t with engines := s.engines, perf := s.perf } = s)
    ∧ (vatOwnerOk o = false ∨ 65536 < size → ∃ t, exec (.vatAlloc e kd ka) s = .next t
      ∧ wrote s t e kd 0x0A ((engine s e).pc + 4) ∧ { t with engines := s.engines, perf := s.perf } = s))
  ∧ (∀ (s : State) (e : EngineId) (kd ka : KReg), startsDev s e .vat →
    let p := (kget s e ka).toNat
    let o := (engine s e).owner.toNat % 2 ^ 32
    (vatOwnerOk o = true → p ≤ 7 → isDeclared s o = false →
      (canClaim s p 4 1 = true → ∃ t h, exec (.vatAllocP e kd ka) s = .next t ∧ granted s t p o h
        ∧ wrote s t e kd (BitVec.ofNat 64 (h * 2 ^ 16)) ((engine s e).pc + 4)
        ∧ { t.vat with held := s.vat.held, nextBank := s.vat.nextBank } = s.vat ∧ (p ≠ 0 → t.vat.nextBank = s.vat.nextBank)
        ∧ { t.cave with nextChan := s.cave.nextChan } = s.cave
        ∧ { t with engines := s.engines, vat := s.vat, cave := s.cave, freeCtr := s.freeCtr, perf := s.perf } = s)
      ∧ (canClaim s p 4 1 = false → ∃ t, exec (.vatAllocP e kd ka) s = .next t
        ∧ wrote s t e kd 0x01 ((engine s e).pc + 4)
        ∧ mget 0 t.vat.empties p = (mget 0 s.vat.empties p + 1) % 2 ^ 32
        ∧ (∀ k, k ≠ p → mget 0 t.vat.empties k = mget 0 s.vat.empties k)
        ∧ { t.vat with empties := s.vat.empties } = s.vat
        ∧ { t with engines := s.engines, vat := s.vat, perf := s.perf } = s))
    ∧ (vatOwnerOk o = false ∨ 7 < p → ∃ t, exec (.vatAllocP e kd ka) s = .next t
      ∧ wrote s t e kd 0x0A ((engine s e).pc + 4) ∧ { t with engines := s.engines, perf := s.perf } = s))

open Sys2Proof.Claims in
/-- R130, R131, R258, R259: VAT.FREE ends the last owner's hold, VAT.RELEASE a sharer's, and the last hold of a buffer
returns it to its pool; VAT.SHARE adds holds and passes the last ownership on; each request by the wrong party changes
no record. A declared owner is the Scraper (R271). A name that stays in the record after its own hold has ended follows
log entry 139. -/
def Obligations.BufferHolds : Prop :=
  ∀ (s : State) (e : EngineId) (kd ka kb kc : KReg), startsDev s e .vat →
    let h := (kget s e ka).toNat
    let a := (engine s e).owner.toNat % 2 ^ 32
    let g := govern s h
    handleOk s h = true → vatOwnerOk a = true → isDeclared s a = false →
    (s.vat.badRecords.contains h = false →
      (∀ r, recordOf s h = some r → r.owner = a → holdsBuffer s a h = true →
        (∃ t, exec (.vatFree e kd ka) s = .next t ∧ wrote s t e kd 0 ((engine s e).pc + 4) ∧ holdEnded s t g r true
          ∧ (r.ended = false → 1 < r.holds → t.vat.holdTable = s.vat.holdTable)
          ∧ { t.vat with held := s.vat.held, holdTable := s.vat.holdTable, returned := s.vat.returned } = s.vat
          ∧ { t with engines := s.engines, vat := s.vat, perf := s.perf } = s)
        ∧ (∃ t, exec (.vatRelease e kd ka) s = .next t ∧ wrote s t e kd 0x04 ((engine s e).pc + 4)
          ∧ { t with engines := s.engines, perf := s.perf } = s))
      ∧ (∀ r, recordOf s h = some r → effOwner s r.owner ≠ a → holdsBuffer s a h = true →
        (∃ t, exec (.vatRelease e kd ka) s = .next t ∧ wrote s t e kd 0 ((engine s e).pc + 4)
          ∧ holdEnded s t g r r.ended
          ∧ (1 < r.holds → t.vat.holdTable.filter (fun x => !(x.1 == g && x.2.1 == a))
              = s.vat.holdTable.filter (fun x => !(x.1 == g && x.2.1 == a)))
          ∧ { t.vat with held := s.vat.held, holdTable := s.vat.holdTable, returned := s.vat.returned } = s.vat
          ∧ { t with engines := s.engines, vat := s.vat, perf := s.perf } = s)
        ∧ (∃ t, exec (.vatFree e kd ka) s = .next t ∧ wrote s t e kd 0x02 ((engine s e).pc + 4) ∧ eventRaised s t
          ∧ { t with engines := s.engines, ledger := s.ledger, perf := s.perf } = s))
      ∧ (holdsBuffer s a h = false →
        (∃ t, exec (.vatFree e kd ka) s = .next t ∧ wrote s t e kd 0x03 ((engine s e).pc + 4)
          ∧ { t with engines := s.engines, perf := s.perf } = s)
        ∧ (∃ t, exec (.vatRelease e kd ka) s = .next t ∧ wrote s t e kd 0x03 ((engine s e).pc + 4)
          ∧ { t with engines := s.engines, perf := s.perf } = s)))
    ∧ (let n := (kget s e kb).toNat
      let o := (kget s e kc).toNat
      o < 2 ^ 32 → vatOwnerOk o = true → 1 ≤ n → n ≤ 65535 →
      (∀ r, recordOf s h = some r → ownsRecord s a r = true → r.holds + n ≤ 65535 → s.vat.holdTable.length < 65536 →
        ∃ t, exec (.vatShare e kd ka kb kc) s = .next t ∧ wrote s t e kd 0 ((engine s e).pc + 4)
        ∧ mget {} t.vat.held g = { r with owner := o, holds := r.holds + n } ∧ otherRecordsKept s t g
        ∧ (∃ m, (g, a, m + n) ∈ t.vat.holdTable)
        ∧ { t.vat with held := s.vat.held, holdTable := s.vat.holdTable } = s.vat
        ∧ { t with engines := s.engines, vat := s.vat, perf := s.perf } = s)
      ∧ (∀ r, recordOf s h = some r → ownsRecord s a r = true → 65535 < r.holds + n →
        ∃ t, exec (.vatShare e kd ka kb kc) s = .next t
        ∧ wrote s t e kd 0x06 ((engine s e).pc + 4) ∧ { t with engines := s.engines, perf := s.perf } = s)
      ∧ ((∀ r, recordOf s h = some r → ownsRecord s a r = false) → ∃ t, exec (.vatShare e kd ka kb kc) s = .next t
        ∧ wrote s t e kd 0x02 ((engine s e).pc + 4) ∧ { t with engines := s.engines, perf := s.perf } = s))

/-! ## Queues, the pager and the scheduler -/

/-- R132, R284, R285, R289: the Q instructions where they are accepted and where they are turned away. Q.ENQ posts the
frame to the journal of a queue that is not resident, and a resident queue takes its entries at once; Q.READ stores a
resident state; Q.FLUSH leaves the queue empty and flushing. A queue number above 1,048,575 answers RANGE. Where the
rules leave a point open it follows log entry 31. -/
def Obligations.QueueInstructions : Prop :=
  (∀ (s : State) (e : EngineId) (kd ka kb : KReg), startsDev s e .q →
    let q := (kget s e ka).toNat
    let a := (kget s e kb).toNat
    let d := Desc.parse (loadBytes s e a 64)
    let o := ownerOf s e
    let cells := chainCells s d.cellCount d.firstCell
    q < 2 ^ 20 → spanFault s e .read a 64 = none → d.cellCount ≠ 0 → d.cellCount ≤ 64 → canClaim s 7 4 1 = true →
    isDeclared s o = false →
    (chainHeld s o cells d.cellCount = true → enqueueDecision s q d.rind.epoch d.rind.dropPrec d.rind.length = none →
      ∃ t i, exec (.qEnq e kd ka kb) s = .next t ∧ wrote s t e kd 0 ((engine s e).pc + 4)
      ∧ ((qst s q).resident = false → t.qm = { s.qm with journal := s.qm.journal ++ [(q, i)] }
        ∧ mhas s.vat.held (handle 7 i) = false ∧ mget {} t.vat.held (handle 7 i) = { owner := queueOwner q, holds := 1 }
        ∧ (desc t i).firstCell = d.firstCell ∧ (desc t i).holderQueue = q
        ∧ (∀ j, j ≠ i → desc t j = desc s j)
        ∧ { t with engines := s.engines, qm := s.qm, vat := s.vat, descs := s.descs, roll := s.roll,
                   freeCtr := s.freeCtr, perf := s.perf } = s)
      ∧ ((qst s q).resident = true → t.qm.journal = s.qm.journal.filter (fun j => j.1 != q)))
    ∧ (∀ r, chainHeld s o cells d.cellCount = true →
      enqueueDecision s q d.rind.epoch d.rind.dropPrec d.rind.length = some r →
      ∃ t, exec (.qEnq e kd ka kb) s = .next t
      ∧ wrote s t e kd (BitVec.ofNat 64 (0x0C + r * 2 ^ 16)) ((engine s e).pc + 4) ∧ t.qm = s.qm)
    ∧ (chainHeld s o cells d.cellCount = false → ∃ t, exec (.qEnq e kd ka kb) s = .next t
      ∧ wrote s t e kd 0x03 ((engine s e).pc + 4) ∧ t.qm = s.qm))
  ∧ (∀ (s : State) (e : EngineId) (kd ka kb : KReg), startsDev s e .q →
    let q := (kget s e ka).toNat
    let a := (kget s e kb).toNat
    q < 2 ^ 20 → spanFault s e .write a 32 = none → (qst s q).resident = true →
    ∃ t, exec (.qRead e kd ka kb) s = .next t ∧ wroteOn s t e kd 0 ∧ stored s t e a (qst s q).bytes
    ∧ { t with engines := s.engines, press := s.press, cave := s.cave, perf := s.perf } = s)
  ∧ (∀ (s : State) (e : EngineId) (kd ka : KReg), startsDev s e .q →
    let q := (kget s e ka).toNat
    (q < 2 ^ 20 → (qst s q).flushing = false → (qst s q).resident = true → ∃ t, exec (.qFlush e kd ka) s = .next t
      ∧ wrote s t e kd 0x08 ((engine s e).pc + 4)
      ∧ (qst t q).flushing = true ∧ (qst t q).head = [] ∧ (qst t q).tail = [] ∧ (qst t q).pages = []
      ∧ (qst t q).depth = 0)
    ∧ (q < 2 ^ 20 → (qst s q).flushing = true → ∃ t, exec (.qFlush e kd ka) s = .next t
      ∧ wrote s t e kd 0x09 ((engine s e).pc + 4) ∧ { t with engines := s.engines, perf := s.perf } = s)
    ∧ (q < 2 ^ 20 → (qst s q).pinned = false → s.qm.pins.length < 1024 → (qst s q).resident = true →
      ∃ t, exec (.qPin e kd ka) s = .next t ∧ wrote s t e kd 0 ((engine s e).pc + 4)
      ∧ qst t q = { qst s q with pinned := true } ∧ (∀ k, k ≠ q → qst t k = qst s k)
      ∧ t.qm.pins = s.qm.pins ++ [(q, ownerOf s e)] ∧ { t.qm with states := s.qm.states, pins := s.qm.pins } = s.qm
      ∧ { t with engines := s.engines, qm := s.qm, perf := s.perf } = s)
    ∧ (q < 2 ^ 20 → (qst s q).pinned = true → ∃ t, exec (.qPin e kd ka) s = .next t
      ∧ wrote s t e kd 0 ((engine s e).pc + 4) ∧ { t with engines := s.engines, perf := s.perf } = s)
    ∧ (q < 2 ^ 20 → (qst s q).pinned = false → 1024 ≤ s.qm.pins.length → ∃ t, exec (.qPin e kd ka) s = .next t
      ∧ wrote s t e kd 0x06 ((engine s e).pc + 4) ∧ { t with engines := s.engines, perf := s.perf } = s)
    ∧ (q < 2 ^ 20 → (qst s q).pinned = true → ∃ t, exec (.qUnpin e kd ka) s = .next t
      ∧ wrote s t e kd 0 ((engine s e).pc + 4)
      ∧ qst t q = { qst s q with pinned := false } ∧ (∀ k, k ≠ q → qst t k = qst s k)
      ∧ (∀ p, p ∈ t.qm.pins ↔ p ∈ s.qm.pins ∧ p.1 ≠ q) ∧ { t.qm with states := s.qm.states, pins := s.qm.pins } = s.qm
      ∧ { t with engines := s.engines, qm := s.qm, perf := s.perf } = s)
    ∧ (q < 2 ^ 20 → (qst s q).pinned = false → ∃ t, exec (.qUnpin e kd ka) s = .next t
      ∧ wrote s t e kd 0x05 ((engine s e).pc + 4) ∧ { t with engines := s.engines, perf := s.perf } = s)
    ∧ (q < 2 ^ 20 → (qst s q).locked = false → s.qm.locks.length < 4096 → ∃ t, exec (.qLock e kd ka) s = .next t
      ∧ wrote s t e kd 0 ((engine s e).pc + 4)
      ∧ qst t q = { qst s q with locked := true } ∧ (∀ k, k ≠ q → qst t k = qst s k)
      ∧ t.qm.locks = s.qm.locks ++ [(q, ownerOf s e)] ∧ { t.qm with states := s.qm.states, locks := s.qm.locks } = s.qm
      ∧ { t with engines := s.engines, qm := s.qm, perf := s.perf } = s)
    ∧ (q < 2 ^ 20 → (qst s q).locked = true ∨ 4096 ≤ s.qm.locks.length → ∃ t, exec (.qLock e kd ka) s = .next t
      ∧ wrote s t e kd 0x09 ((engine s e).pc + 4) ∧ { t with engines := s.engines, perf := s.perf } = s)
    ∧ (q < 2 ^ 20 → (q, ownerOf s e) ∈ s.qm.locks → ∃ t, exec (.qUnlock e kd ka) s = .next t
      ∧ wrote s t e kd 0 ((engine s e).pc + 4)
      ∧ qst t q = { qst s q with locked := false } ∧ (∀ k, k ≠ q → qst t k = qst s k)
      ∧ (∀ p, p ∈ t.qm.locks ↔ p ∈ s.qm.locks ∧ p.1 ≠ q) ∧ { t.qm with states := s.qm.states, locks := s.qm.locks } = s.qm
      ∧ { t with engines := s.engines, qm := s.qm, perf := s.perf } = s)
    ∧ (q < 2 ^ 20 → (q, ownerOf s e) ∉ s.qm.locks → ∃ t, exec (.qUnlock e kd ka) s = .next t
      ∧ wrote s t e kd 0x02 ((engine s e).pc + 4) ∧ { t with engines := s.engines, perf := s.perf } = s)
    ∧ (2 ^ 20 ≤ q → (∀ c ∈ [Instr.qFlush e kd ka, .qPin e kd ka, .qUnpin e kd ka, .qLock e kd ka, .qUnlock e kd ka],
      ∃ t, exec c s = .next t ∧ wrote s t e kd 0x0A ((engine s e).pc + 4)
      ∧ { t with engines := s.engines, perf := s.perf } = s)))

/-- R132, R277, R287, R288, R290 to R294: a state fetch makes the state resident and applies its journal entries; a cold
write-back leaves both copies equal to the state; a page-out takes a page, which names the queue and its sequence, and
frames of the staging list; a page-in begins the read of the head page, which its end takes off the queue: the frames
join, or the page's claim waits, or the page is lost, and one that ECC cannot correct is retired; a prefetch reads ahead
where R294 asks for it; each waits where R292 puts other work first; a flush ends with its event; a lost copy is rebuilt
in another buffer, and where both were lost the states they held are flushed. -/
def Obligations.PagerCommands : Prop :=
  (∀ (s : State) (q : QueueId), ((qst s q).resident = true ∨ headWaits s = true → exec (.stateFetch q) s = .next s)
    ∧ ((qst s q).resident = false → headWaits s = false → residentCount s < 32768 →
      ∃ t, exec (.stateFetch q) s = .next t ∧ (qst t q).resident = true
      ∧ t.qm.journal = s.qm.journal.filter (fun j => j.1 != q.val) ∧ t.engines = s.engines
      ∧ (copyGood s q 0 = true ∨ copyGood s q 1 = true → s.qm.journal.filter (fun j => j.1 == q.val) = [] →
          (qst s q).head = [] → qst t q = { qst s q with resident := true, lastUsed := s.now }
            ∧ (∀ k, k ≠ q.val → qst t k = qst s k))))
  ∧ (∀ (s : State) (q : QueueId), (qst s q).resident = true → (qst s q).dirty = true →
    (qst s q).lastUsed + rwField s .qcache 0 15 0 * 10 ^ 6 ≤ s.now → headWaits s = false → fetchWaits s = false →
    (∀ p ∈ s.qm.states, pageDue s p.2 = false) → ∃ t, exec (.coldWriteback q) s = .next t
    ∧ qst t q = { qst s q with dirty := false } ∧ (∀ k, k ≠ q.val → qst t k = qst s k)
    ∧ (∀ c < 2, copyGood s q c = true → memRead t.cave.mem (copyOffset s q c) 32 = (qst s q).bytes)
    ∧ { t.cave with mem := s.cave.mem } = s.cave ∧ { t.qm with states := s.qm.states } = s.qm
    ∧ { t with qm := s.qm, cave := s.cave } = s)
  ∧ (∀ (s : State) (q : QueueId), (qst s q).tail ≠ [] →
    (∀ i ∈ (qst s q).tail, descOk s (desc s i) = true ∧ frameBad s (desc s i) = false) →
    canClaim s 5 1 1 = true → isDeclared s (ownerName 5 0) = false → pageOutServed s q = true →
    let out := fun (t : State) => (∃ p, (qst t q).pages = (qst s q).pages ++ [p] ∧ mhas s.vat.held (handle 5 p) = false
        ∧ memRead t.cave.mem (pageOffset p) 8 = leBytes 4 q.val ++ leBytes 4 (qst s q).pageSeq)
      ∧ (∃ n, (qst t q).tail = (qst s q).tail.drop n) ∧ (qst t q).pageSeq = ((qst s q).pageSeq + 1) % 2 ^ 32
      ∧ (qst t q).head = (qst s q).head ∧ (∀ k, k ≠ q.val → qst t k = qst s k) ∧ t.qm.journal = s.qm.journal
      ∧ t.engines = s.engines
    (pageFull s (qst s q) = true → ∃ t, exec (.pageOut q) s = .next t ∧ out t)
    ∧ (stagedSince s (qst s q) + rwField s .pager 0 7 0 * 10 ^ 6 ≤ s.now →
      ∃ t, exec (.pageFlushExpiry q) s = .next t ∧ out t))
  ∧ (∀ (s : State) (q : QueueId), pageOutServed s q = false →
    exec (.pageOut q) s = .next s ∧ exec (.pageFlushExpiry q) s = .next s)
  ∧ (∀ (s : State) (q : QueueId), (qst s q).resident = true → (qst s q).pages ≠ [] → (qst s q).reading = false →
    headLow s (qst s q) = true → readsOpen s < 1024 →
    let reads := fun (t : State) (prefetch : Bool) =>
      qst t q = { qst s q with reading := true, prefetching := prefetch, miss := decide ((qst s q).head = []) }
      ∧ (∀ k, k ≠ q.val → qst t k = qst s k) ∧ { t.qm with states := s.qm.states } = s.qm
      ∧ { t with qm := s.qm, perf := s.perf } = s
    (headWaits s = false ∨ (qst s q).miss = true →
      (∃ t, exec (.pageIn q) s = .next t ∧ reads t false)
      ∧ (prefetchWanted s q = true → ∃ t, exec (.prefetch q) s = .next t ∧ reads t true))
    ∧ (headWaits s = true → (qst s q).miss = false →
      exec (.pageIn q) s = .next s ∧ exec (.prefetch q) s = .next s))
  ∧ (∀ (s : State) (q : QueueId), prefetchWanted s q = false → exec (.prefetch q) s = .next s)
  ∧ (∀ (s : State) (q : QueueId) (read : PageRead) (p : Nat) (ps : List Nat), (qst s q).reading = true →
    (qst s q).pages = p :: ps →
    let body := memRead s.cave.mem (pageOffset p + 64) pageBody
    let frames := withSince (qst s q).since
      (parsePage (pageHeader s p).1 body (qst s q).partIn (qst s q).partBad).1
    ((chan s (p / 6291456)).ready = false → ∃ t, exec (.pageInDone q read) s = .next t
      ∧ (qst t q).pages = ps ∧ (qst t q).reading = false)
    ∧ ((chan s (p / 6291456)).ready = true → read = .uncorrectable →
      (chan s (p / 6291456)).retired.length < 4096 → ∃ t, exec (.pageInDone q read) s = .next t
      ∧ (qst t q).pages = ps ∧ (qst t q).reading = false
      ∧ (chan t (p / 6291456)).retired = (chan s (p / 6291456)).retired ++ [p % 6291456])
    ∧ ((chan s (p / 6291456)).ready = true → read = .clean →
      leAt (memRead s.cave.mem (pageOffset p) 64) 60 4 = crc32c 0 ((memRead s.cave.mem (pageOffset p) 64).take 60) →
      (∀ is u, restoreFrames q (p / 6291456 / 4) frames s = (some is, u) → ∃ t, exec (.pageInDone q read) s = .next t
        ∧ (qst t q).pages = ps ∧ (qst t q).reading = false)
      ∧ (∀ u, restoreFrames q (p / 6291456 / 4) frames s = (none, u) → ∃ t, exec (.pageInDone q read) s = .next t
        ∧ { t.vat with empties := s.vat.empties, declaredDrops := s.vat.declaredDrops } = s.vat
        ∧ { t with vat := s.vat, perf := s.perf } = s)))
  ∧ (∀ (s : State) (q : QueueId), (qst s q).flushing = true → ∃ t, exec (.queueFlushDone q) s = .next t
    ∧ qst t q = { qst s q with flushing := false, flushed := 0 } ∧ (∀ k, k ≠ q.val → qst t k = qst s k)
    ∧ eventRaised s t ∧ { t.qm with states := s.qm.states } = s.qm ∧ { t with qm := s.qm, ledger := s.ledger } = s)
  ∧ (∀ (s : State) (q : QueueId) (c : Nat), c < 2 → copyGood s q c = false → copyGood s q (1 - c) = true →
    ∀ i u, takeCopyBuffer c s = (some i, u) → ∃ t, exec (.queueCopyRebuild q) s = .next t
    ∧ copyGood t q c = true ∧ copyGood t q (1 - c) = true ∧ copyBuffer t (q.val / 65536) c = i
    ∧ copyBuffer t (q.val / 65536) (1 - c) = copyBuffer s (q.val / 65536) (1 - c)
    ∧ eventRaised s t ∧ t.qm.journal = s.qm.journal
    ∧ { t with qm := s.qm, cave := s.cave, vat := s.vat, ledger := s.ledger, freeCtr := s.freeCtr } = s)
  ∧ (∀ (s : State) (q : QueueId), copyGood s q 0 = false → copyGood s q 1 = false →
    ∃ t, exec (.queueCopyRebuild q) s = .next t ∧ t.engines = s.engines
    ∧ ∀ k, k / 65536 = q.val / 65536 → mhas s.qm.states k = true → (qst s k).resident = false →
      (qst t k).head = [] ∧ (qst t k).tail = [] ∧ (qst t k).pages = [] ∧ (qst t k).depth = 0)
  ∧ (∀ (s : State) (q : QueueId), copyGood s q 0 = true → copyGood s q 1 = true → exec (.queueCopyRebuild q) s = .next s)

/-- R296, R298 to R302, R306, R312, R315, R317: a selection takes the head of the bundle that level B selects on the
next port in turn that may take a frame, and puts it last in the pipe's egress; a selection that meets a damaged queue
state declares the queue first; a shaper whose time has come leaves the Wheel, and one whose coarse slot has come is
placed again; a stop whose time has passed ends; a gate list's entry and states follow the port's copy of the time of
day. Where the rules leave a point open it follows log entries 34, 35, 145 and 150. -/
def Obligations.SchedulerCommands : Prop :=
  (∀ (s : State) (p : PipeId), (pipeOf s p).faulted = false →
    let u := refreshPorts ((List.range 16).map (fun n => 16 * p.val + n)) s
    let start := mget 0 u.sched.roundRobin p.val
    ∀ n b q i is, ((List.range 16).map (fun i => (start + i) % 16)).find?
        (fun n => portTakes u (16 * p.val + n) && (selectBundle u (16 * p.val + n)).isSome) = some n →
      selectBundle u (16 * p.val + n) = some b → (bundleRun u (16 * p.val + n) b).offer = some q →
      (qst u q).head = i :: is → n < 16 →
      ∃ t it, exec (.egressSelection p none) s = .next t ∧ (pipeOf t p).egress = (pipeOf u p).egress ++ [it]
      ∧ it.desc = i ∧ it.queue = q ∧ it.port = 16 * p.val + n ∧ mget 0 t.sched.roundRobin p.val = (n + 1) % 16)
  ∧ (∀ (s : State) (p : PipeId), (pipeOf s p).faulted = true → exec (.egressSelection p none) s = .next s)
  ∧ (∀ (s : State) (p : PipeId) (q : QueueId), exec (.egressSelection p (some q)) s = exec (.egressSelection p none)
      (if (qcfg s q).role = 2 ∧ (qcfg s q).pipe = p.val then declareQueue q s else s))
  ∧ (∀ (s : State) (q : QueueId) (i : Nat) (is : List Nat), (qst s q).resident = true → (qst s q).head = i :: is →
    (headDrop s q (desc s i) = none → exec (.epochDrainExpiry q) s = .next s)
    ∧ (∀ r, headDrop s q (desc s i) = some r → is = [] → ∃ t, exec (.epochDrainExpiry q) s = .next t
      ∧ (qst t q).head = [] ∧ t.engines = s.engines
      ∧ (domainOn s 13 = true → descOk s (desc s i) = true → mget 0 t.whey.count r = (mget 0 s.whey.count r + 1) % 2 ^ 64)))
  ∧ (∀ (s : State) (w : Nat), mget 0 s.sched.wheel w ≠ 0 → mget 0 s.sched.wheel w ≤ s.now →
    ∃ t, exec (.wheelRelease w) s = .next t ∧ mget 0 t.sched.wheel w = 0 ∧ mhas t.sched.wheelAt w = false
    ∧ (∀ k, k ≠ w → mget 0 t.sched.wheel k = mget 0 s.sched.wheel k ∧ mget (0, 0) t.sched.wheelAt k = mget (0, 0) s.sched.wheelAt k)
    ∧ t.sched.wheelLate = (if mget 0 s.sched.wheel w + 2500 < s.now then (s.sched.wheelLate + 1) % 2 ^ 32 else s.sched.wheelLate)
    ∧ { t.sched with wheel := s.sched.wheel, wheelAt := s.sched.wheelAt, wheelLate := s.sched.wheelLate } = s.sched
    ∧ { t with sched := s.sched } = s)
  ∧ (∀ (s : State) (w : Nat), s.now < mget 0 s.sched.wheel w →
    let slot := mget (0, 0) s.sched.wheelAt w
    slot.2 * wheelSlotPs slot.1 ≤ s.now → ∃ t, exec (.wheelRelease w) s = .next t
    ∧ mget (0, 0) t.sched.wheelAt w = wheelPlace s.now (mget 0 s.sched.wheel w)
    ∧ (∀ k, mget 0 t.sched.wheel k = mget 0 s.sched.wheel k)
    ∧ { t.sched with wheel := s.sched.wheel, wheelAt := s.sched.wheelAt } = s.sched ∧ { t with sched := s.sched } = s)
  ∧ (∀ (s : State) (port : LaneId) (prio : Option (Fin 8)),
    let key := match prio with
      | none => 9 * port.val
      | some i => 9 * port.val + 1 + i.val
    mhas s.sched.stops key = true → mget 0 s.sched.stops key ≤ s.now → arrivalsWait s = false →
    ∃ t, exec (.pauseStopExpiry port prio) s = .next t
    ∧ mhas t.sched.stops key = false ∧ (∀ k, k ≠ key → mget 0 t.sched.stops k = mget 0 s.sched.stops k)
    ∧ { t.sched with stops := s.sched.stops } = s.sched ∧ { t with sched := s.sched } = s)
  ∧ (∀ (s : State) (port : LaneId) (l : GateList), (gateRun s port).running = some l → l.start ≤ tileTime s port →
    ∃ t, exec (.gateEntryAdvance port) s = .next t
    ∧ gateRun t port = { gateRun s port with entry := entryAt l.entries 0 0 (l.offset (tileTime s port)),
                                             states := l.statesAt (tileTime s port) }
    ∧ (∀ k, k ≠ port.val → gateRun t k = gateRun s k)
    ∧ { t.sched with gates := s.sched.gates } = s.sched ∧ { t with sched := s.sched } = s)
  ∧ (∀ (s : State) (port : LaneId) (l : GateList), (gateRun s port).pending = some l → l.start ≤ tileTime s port →
    ∃ t, exec (.gateListStart port) s = .next t ∧ (gateRun t port).pending = none
    ∧ (gateRun t port).running = (if (gateRun s port).pendingOff then none else some l)
    ∧ (∀ k, k ≠ port.val → gateRun t k = gateRun s k) ∧ t.engines = s.engines)

/-! ## Time -/

namespace Sys2Proof.Claims

/-- The 16 bytes of a time record of the engine count (R133). -/
def recordBytes (s : State) : List Byte :=
  leBytes 8 (s.time.count / (10 ^ 9 * 2 ^ 16)) ++ leBytes 4 (s.time.count % (10 ^ 9 * 2 ^ 16) / 2 ^ 16)
    ++ leBytes 2 (s.time.count % 2 ^ 16)
    ++ leBytes 2 ((if s.time.state = .switchover ∨ s.time.state = .holdover then 1 else 0)
        + (if s.time.slew = none then 0 else 2) + (if s.time.notSet then 4 else 0))

end Sys2Proof.Claims

/-- R133 to R135: TIME.RD, TIME.RDN, TIME.SET, TIME.STEP, TIME.SLEW, TIME.AT and TIME.CANCEL, each where it is
accepted, and each refusal that R134 and R135 name, with what it leaves unchanged. Which free handle TIME.AT returns
is a free value. Where the rules leave a point open it follows log entries 65, 75 and 76. -/
def Obligations.TimeInstructions : Prop :=
  (∀ (s : State) (e : EngineId) (kd ka : KReg), startsDev s e .timeRead →
    let a := (kget s e ka).toNat
    recordFault s e .write a = none → ∃ t, exec (.timeRd e kd ka) s = .next t ∧ wroteOn s t e kd 0
      ∧ stored s t e a (recordBytes s)
      ∧ { t with engines := s.engines, press := s.press, cave := s.cave, perf := s.perf } = s)
  ∧ (∀ (s : State) (e : EngineId) (kd : KReg), startsDev s e .timeRead → ∃ t, exec (.timeRdn e kd) s = .next t
      ∧ wrote s t e kd (BitVec.ofNat 64 (s.time.count % (10 ^ 9 * 2 ^ 16) * 2 ^ 16)) ((engine s e).pc + 4)
      ∧ { t with engines := s.engines, perf := s.perf } = s)
  ∧ (∀ (s : State) (e : EngineId) (kd ka : KReg), startsDev s e .timeSet →
    let a := (kget s e ka).toNat
    recordFault s e .read a = none →
    (∀ τ, recordTime (loadBytes s e a 16) = some τ → timeBusy s = false → s.time.notSet = true →
      ∃ t, exec (.timeSet e kd ka) s = .next t ∧ wrote s t e kd 0 ((engine s e).pc + 4)
        ∧ t.time.count = τ ∧ t.time.notSet = false
        ∧ { t.time with count := s.time.count, notSet := true, lastSecond := s.time.lastSecond } = s.time
        ∧ { t with engines := s.engines, time := s.time, perf := s.perf } = s)
    ∧ (recordTime (loadBytes s e a 16) = none → ∃ t, exec (.timeSet e kd ka) s = .next t
        ∧ wrote s t e kd 0x0A ((engine s e).pc + 4) ∧ { t with engines := s.engines, perf := s.perf } = s))
  ∧ (∀ (s : State) (e : EngineId) (kd ka : KReg), startsDev s e .timeSet →
    let d := (kget s e ka).toInt
    let limit := rwField s .time 1 29 0 * 2 ^ 16
    (timeBusy s = false → limit ≠ 0 → d.natAbs ≤ limit → ∃ t, exec (.timeStep e kd ka) s = .next t
      ∧ wrote s t e kd 0 ((engine s e).pc + 4) ∧ (0 ≤ (s.time.count : Int) + d → (t.time.count : Int) = s.time.count + d)
      ∧ { t.time with count := s.time.count, ppsFall := s.time.ppsFall } = s.time
      ∧ { t with engines := s.engines, time := s.time, perf := s.perf } = s)
    ∧ (timeBusy s = false → (limit = 0 ∨ limit < d.natAbs) → ∃ t, exec (.timeStep e kd ka) s = .next t
      ∧ wrote s t e kd 0x0C ((engine s e).pc + 4) ∧ eventRaised s t
      ∧ { t with engines := s.engines, ledger := s.ledger, perf := s.perf } = s)
    ∧ (timeBusy s = true → ∃ t, exec (.timeStep e kd ka) s = .next t ∧ wrote s t e kd 0x09 ((engine s e).pc + 4)
      ∧ { t with engines := s.engines, perf := s.perf } = s))
  ∧ (∀ (s : State) (e : EngineId) (kd ka kb : KReg), startsDev s e .timeSet →
    let rate := (kget s e kb).toNat
    let limit := rwField s .time 2 18 0
    (limit < rate → ∃ t, exec (.timeSlew e kd ka kb) s = .next t ∧ wrote s t e kd 0x0A ((engine s e).pc + 4)
      ∧ { t with engines := s.engines, perf := s.perf } = s)
    ∧ (rate ≤ limit → timeBusy s = false → ∃ t w, exec (.timeSlew e kd ka kb) s = .next t
      ∧ wrote s t e kd 0x08 ((engine s e).pc + 4) ∧ t.time.slew = some w ∧ w.left = (kget s e ka).toInt
      ∧ w.rate = (if rate = 0 then limit else rate) ∧ { t.time with slew := s.time.slew } = s.time
      ∧ { t with engines := s.engines, time := s.time, perf := s.perf } = s))
  ∧ (∀ (s : State) (e : EngineId) (kd ka kb kc : KReg), startsDev s e .timeSet →
    let a := (kget s e ka).toNat
    (2 ^ 32 ≤ (kget s e kb).toNat ∨ 2 ^ 32 ≤ (kget s e kc).toNat → ∃ t, exec (.timeAt e kd ka kb kc) s = .next t
      ∧ wrote s t e kd 0x0A ((engine s e).pc + 4) ∧ { t with engines := s.engines, perf := s.perf } = s)
    ∧ ((kget s e kb).toNat < 2 ^ 32 → (kget s e kc).toNat < 2 ^ 32 →
    recordFault s e .read a = none → ∀ due, recordTime (loadBytes s e a 16) = some due →
    (s.time.count < due → (∃ h < 64, mhas s.time.actions h = false) →
      ∃ t h, exec (.timeAt e kd ka kb kc) s = .next t ∧ h < 64 ∧ mhas s.time.actions h = false
        ∧ wrote s t e kd (BitVec.ofNat 64 (h * 2 ^ 16)) ((engine s e).pc + 4)
        ∧ mget {} t.time.actions h
          = { due := due, addr := (kget s e kb).toNat, val := (kget s e kc).toNat }
        ∧ (∀ j, j ≠ h → mget {} t.time.actions j = mget {} s.time.actions j)
        ∧ { t.time with actions := s.time.actions } = s.time
        ∧ { t with engines := s.engines, time := s.time, perf := s.perf, freeCtr := s.freeCtr } = s)
    ∧ (due ≤ s.time.count → ∃ t, exec (.timeAt e kd ka kb kc) s = .next t ∧ wrote s t e kd 0x0B ((engine s e).pc + 4)
        ∧ { t with engines := s.engines, perf := s.perf } = s)))
  ∧ (∀ (s : State) (e : EngineId) (kd ka : KReg), startsDev s e .timeSet →
    let h := (kget s e ka).toNat
    (64 ≤ h → ∃ t, exec (.timeCancel e kd ka) s = .next t ∧ wrote s t e kd 0x0A ((engine s e).pc + 4)
      ∧ { t with engines := s.engines, perf := s.perf } = s)
    ∧ (h < 64 → mhas s.time.actions h = true → s.time.count < (mget {} s.time.actions h).due →
      ∃ t, exec (.timeCancel e kd ka) s = .next t ∧ wrote s t e kd 0 ((engine s e).pc + 4)
        ∧ mhas t.time.actions h = false ∧ (∀ j, j ≠ h → mget {} t.time.actions j = mget {} s.time.actions j)
        ∧ { t.time with actions := s.time.actions } = s.time
        ∧ { t with engines := s.engines, time := s.time, perf := s.perf } = s)
    ∧ (h < 64 → mhas s.time.actions h = false ∨ (mget {} s.time.actions h).due ≤ s.time.count →
      ∃ t, exec (.timeCancel e kd ka) s = .next t ∧ wrote s t e kd 0x05 ((engine s e).pc + 4)
        ∧ { t with engines := s.engines, perf := s.perf } = s))

/-- R409, R413, R415, R427, R429: a finished slew is reported and gone, a PPS edge is captured into its channel alone,
a second boundary takes each channel's frequency input, is taken once and waits for the edges of its clock (R414), the loss of the PTP parent enters HOLDOVER,
and the first due action's write to a register that only stores is done and the action is gone. Where the rules leave
a point open it follows log entries 70, 71, 74, 77 and 145. -/
def Obligations.TimeEvents : Prop :=
  (∀ (s : State) (w : Slew), s.time.slew = some w → w.left = 0 → ∃ t, exec .slewComplete s = .next t
    ∧ t.time = { s.time with slew := none } ∧ eventRaised s t ∧ { t with time := s.time, ledger := s.ledger } = s)
  ∧ (∀ (s : State) (ch : Fin 3) (inTime : Bool), domainOn s 2 = true →
    let τ := s.time.count - rwField s .refin (16 * ch.val + 1) 23 0 * 2 ^ 16 / 1000
    ∃ t, exec (.ppsEdge ch inTime) s = .next t
    ∧ (refOf t ch.val).capNs = τ % (10 ^ 9 * 2 ^ 16) / 2 ^ 16 ∧ (refOf t ch.val).capFrac = τ % 2 ^ 16
    ∧ (refOf t ch.val).unread = true ∧ (refOf t ch.val).ppsPresent = inTime
    ∧ (∀ x, x ≠ ch.val → refOf t x = refOf s x) ∧ { t.time with refs := s.time.refs } = s.time
    ∧ { t with time := s.time } = s)
  ∧ (∀ (s : State) (fA fB fC : Option (BitVec 32)) (servo : Bool), todSec s ≠ s.time.lastSecond → domainOn s 2 = true →
    s.pending.any beforeBoundary = false →
    ∃ t, exec (.secondBoundary fA fB fC servo) s = .next t
    ∧ t.time.lastSecond = todSec s
    ∧ (refOf t 0).freqPresent = fA.isSome ∧ (refOf t 1).freqPresent = fB.isSome ∧ (refOf t 2).freqPresent = fC.isSome
    ∧ ((engine s eTime).run = .halted → t.time.state = s.time.state ∧ t.time.count = s.time.count)
    ∧ { t with time := s.time, ledger := s.ledger } = s)
  ∧ (∀ (s : State) (fA fB fC : Option (BitVec 32)) (servo : Bool), todSec s = s.time.lastSecond ∨ s.pending.any beforeBoundary = true →
    exec (.secondBoundary fA fB fC servo) s = .next s)
  ∧ (∀ (s : State), rwField s .time 0 1 0 = 1 → ∃ t, exec .ptpParentLoss s = .next t
    ∧ t.time.state = .holdover ∧ t.time.ptpLocked = false
    ∧ { t.time with state := s.time.state, ptpLocked := s.time.ptpLocked, refused := s.time.refused } = s.time
    ∧ { t with time := s.time } = s)
  ∧ (∀ (s : State) (h : Fin 64) (p : TimedAction) (b : Block) (r : Nat),
    s.time.actions.find? (fun q => q.1 == h.val) = some (h.val, p) → p.due ≤ s.time.count → domainOn s 2 = true →
    (∀ q ∈ s.time.actions, actionClock p < actionClock q.2 ∨ (actionClock p = actionClock q.2 ∧ h.val ≤ q.1)) →
    accessOf s .timeEngine p.addr = .mapped b r → plainReg b r = true → (specOf b r).rw ≠ 0 →
    regRefusal s b r (regWr s b r (addrAlias p.addr) p.val) = none →
    ∃ t, exec (.scheduledAction h) s = .next t ∧ mhas t.time.actions h.val = false
    ∧ (∀ k, (specOf b r).rw.testBit k = true →
        (rwBits t b r).testBit k = (applyAlias (addrAlias p.addr) (storedBits s b r) p.val).testBit k)
    ∧ otherRegsKept s t b r ∧ { t.time with actions := s.time.actions } = s.time
    ∧ { t with time := s.time, regs := s.regs, bank0 := s.bank0, bank1 := s.bank1, perf := s.perf } = s)

/-! ## Tables -/

namespace Sys2Proof.Claims

/-- The operation is turned away with a code, and nothing but kd and the pc has changed. -/
def turnedAway (s : State) (c : Instr) (e : EngineId) (kd : KReg) (code : Word64) : Prop :=
  ∃ t, exec c s = .next t ∧ wrote s t e kd code ((engine s e).pc + 4)
    ∧ { t with engines := s.engines, perf := s.perf } = s

/-- The codes of steps 1 to 4 of R127 for an operation that writes the shadow, in their order. -/
def writeGates (s : State) (op : TblOp) (h : Nat) (away : Word64 → Prop) : Prop :=
  (handleFits op h = false → away 0x0A)
    ∧ (handleFits op h = true → tableReady s (hType h) (hInst h) (hIndex h) = false → away 0x0F)
    ∧ (handleFits op h = true → tableReady s (hType h) (hInst h) (hIndex h) = true → s.epoch.shadowOpen = false →
      away 0x07)
    ∧ (handleFits op h = true → tableReady s (hType h) (hInst h) (hIndex h) = true → s.epoch.shadowOpen = true →
      s.epoch.commit ≠ .none → away 0x09)

/-- A table operation has changed the shadow generation's entries and the marks of lost and bad entries,
and nothing else but kd, the pc and the counters. -/
def shadowOnly (s t : State) : Prop :=
  bankOf t s.epoch.live = bankOf s s.epoch.live
    ∧ (bankOf t (s.epoch.live + 1)).rwl = (bankOf s (s.epoch.live + 1)).rwl
    ∧ { t with engines := s.engines, bank0 := s.bank0, bank1 := s.bank1, lostEntries := s.lostEntries,
               badEntries := s.badEntries, perf := s.perf } = s

end Sys2Proof.Claims

open Sys2Proof.Claims in
/-- R125 to R128, R100: TBL.WR stores an image that passes its checks in the shadow generation alone, TBL.RD stores
the image of the generation it names to memory, TBL.PROG loads a program that the loader accepts and refuses any other
with the loader's reason and an event; the steps 1 to 4 of R127 end an operation with their codes, in their order.
Where the rules leave a point open it follows log entries 17, 48 and 49. -/
def Obligations.IndexedTables : Prop :=
  (∀ (s : State) (e : EngineId) (kd ka kb : KReg), startsDev s e .tbl →
    let h := (kget s e ka).toNat
    let a := (kget s e kb).toNat
    let T := hType h
    let n := imageSize T
    let img := leNat (loadBytes s e a n)
    writeGates s .wr h (turnedAway s (.tblWr e kd ka kb) e kd)
    ∧ (tblGate s .wr h = none → spanFault s e .read a n = none → T ≠ 5 → T ≠ 6 → hInst h ≠ 0xFFFF →
      (T = 3 → mapImageOk img = true ∧ (∀ r ∈ shadowRoutes s, hIndex h ∉ coveredIndexes s r)
        ∧ (∀ k < 64, sliceRows s k + reservedRows s k ≤ 40960) ∧ queuesTake s [] = true) →
      (T ≠ 3 → imageOk s T (hInst h) (hIndex h) img = true) → (T = 0x0D → queueClash s (hIndex h) img = false) →
      ∃ t, exec (.tblWr e kd ka kb) s = .next t ∧ wrote s t e kd 0 ((engine s e).pc + 4)
      ∧ tblGet t (s.epoch.live + 1) T (hInst h) (hIndex h) = img ∧ shadowOnly s t
      ∧ (∀ T' i x, tblKey T' i x ≠ tblKey T (hInst h) (hIndex h) →
          tblGet t (s.epoch.live + 1) T' i x = tblGet s (s.epoch.live + 1) T' i x))
    ∧ (tblGate s .wr h = none → spanFault s e .read a n = none → T ≠ 3 → T ≠ 6 → hInst h = 0xFFFF →
      imageOk s T (hInst h) (hIndex h) img = true → ∃ t, exec (.tblWr e kd ka kb) s = .next t
      ∧ wrote s t e kd 0 ((engine s e).pc + 4) ∧ shadowOnly s t
      ∧ (∀ p < 32, tblGet t (s.epoch.live + 1) T p (hIndex h) = img))
    ∧ (tblGate s .wr h = none → spanFault s e .read a n = none → T = 5 → groupImageOk img = true →
      let stored := img % 2 ^ (128 + 32 * groupCount img)
      let b := bankOf s (s.epoch.live + 1)
      memberWords b - groupWords (tblGet s (s.epoch.live + 1) 5 0 (hIndex h)) + groupWords stored ≤ 1048576 →
      ∃ t, exec (.tblWr e kd ka kb) s = .next t ∧ wrote s t e kd 0 ((engine s e).pc + 4)
      ∧ tblGet t (s.epoch.live + 1) 5 0 (hIndex h) = stored ∧ shadowOnly s t)
    ∧ (tblGate s .wr h = none → spanFault s e .read a n = none → T = 6 → nodeImageOk img = true →
      nodeBusy s (hIndex h) = false → ∃ t, exec (.tblWr e kd ka kb) s = .next t
      ∧ wrote s t e kd 0 ((engine s e).pc + 4) ∧ mget 0 t.tree.nodes (hIndex h) = img
      ∧ (∀ k, k ≠ hIndex h → mget 0 t.tree.nodes k = mget 0 s.tree.nodes k)
      ∧ { t.tree with nodes := s.tree.nodes } = s.tree
      ∧ { t with engines := s.engines, tree := s.tree, lostEntries := s.lostEntries, badEntries := s.badEntries,
                 perf := s.perf } = s)
    ∧ (tblGate s .wr h = none → spanFault s e .read a n = none →
      (T = 6 → nodeImageOk img = true → nodeBusy s (hIndex h) = true → turnedAway s (.tblWr e kd ka kb) e kd 0x09)
      ∧ (T = 0x0D → queueImageOk img = true → queueClash s (hIndex h) img = true →
        turnedAway s (.tblWr e kd ka kb) e kd 0x0C)
      ∧ (T = 0x0A → profileImageOk img = false → ∃ t, exec (.tblWr e kd ka kb) s = .next t
        ∧ wrote s t e kd 0x0A ((engine s e).pc + 4) ∧ eventRaised s t
        ∧ { t with engines := s.engines, ledger := s.ledger, perf := s.perf } = s)
      ∧ (T = 3 → mapImageOk img = false → turnedAway s (.tblWr e kd ka kb) e kd 0x0A)
      ∧ (T ≠ 3 → T ≠ 0x0A → imageOk s T (hInst h) (hIndex h) img = false →
        turnedAway s (.tblWr e kd ka kb) e kd 0x0A)))
  ∧ (∀ (s : State) (e : EngineId) (kd ka kb kc : KReg), startsDev s e .tbl →
    let h := (kget s e ka).toNat
    let a := (kget s e kb).toNat
    let c := (kget s e kc).toNat
    let T := hType h
    let y := s.epoch.live + c
    (2 ≤ c → turnedAway s (.tblRd e kd ka kb kc) e kd 0x0A)
    ∧ (c = 1 → s.epoch.shadowOpen = false → handleFits (.rd true) h = true →
      tableReady s T (hInst h) (hIndex h) = true → turnedAway s (.tblRd e kd ka kb kc) e kd 0x07)
    ∧ (c < 2 → tblGate s (.rd (c == 1)) h = none →
      let v := if T = 6 then mget 0 s.tree.nodes (hIndex h) else tblGet s y T (hInst h) (hIndex h)
      let n := if T = 0x0B ∨ T = 0x0C then 64 + fieldOf v 159 128 else imageSize T
      spanFault s e .write a n = none → ∃ t, exec (.tblRd e kd ka kb kc) s = .next t ∧ wroteOn s t e kd 0
      ∧ stored s t e a (leBytes n v)
      ∧ { t with engines := s.engines, press := s.press, cave := s.cave, perf := s.perf } = s))
  ∧ (∀ (s : State) (e : EngineId) (kd ka kb kc : KReg), startsDev s e .tbl →
    let h := (kget s e ka).toNat
    let a := (kget s e kb).toNat
    let n := (kget s e kc).toNat
    let img := leNat (loadBytes s e a n)
    let reason := loaderReason s (s.epoch.live + 1) (hInst h) (hType h == 0x0C) n img
    (n < 65536 → writeGates s .prog h (turnedAway s (.tblProg e kd ka kb kc) e kd))
    ∧ (65536 ≤ n → turnedAway s (.tblProg e kd ka kb kc) e kd 0x0A)
    ∧ (n = 0 → tblGate s .prog h = none → turnedAway s (.tblProg e kd ka kb kc) e kd 0x0D)
    ∧ (1 ≤ n → n < 65536 → tblGate s .prog h = none → spanFault s e .read a n = none → hInst h ≠ 0xFFFF →
      (reason = 0 → ∃ t, exec (.tblProg e kd ka kb kc) s = .next t ∧ wrote s t e kd 0 ((engine s e).pc + 4)
        ∧ tblGet t (s.epoch.live + 1) (hType h) (hInst h) (hIndex h) = img
        ∧ (∀ T' i x, tblKey T' i x ≠ tblKey (hType h) (hInst h) (hIndex h) →
            tblGet t (s.epoch.live + 1) T' i x = tblGet s (s.epoch.live + 1) T' i x)
        ∧ shadowOnly s t)
      ∧ (reason ≠ 0 → ∃ t, exec (.tblProg e kd ka kb kc) s = .next t
        ∧ wrote s t e kd (BitVec.ofNat 64 (0x0C + reason % 2 ^ 48 * 2 ^ 16)) ((engine s e).pc + 4) ∧ eventRaised s t
        ∧ { t with engines := s.engines, ledger := s.ledger, perf := s.perf } = s))
    ∧ (1 ≤ n → n < 65536 → tblGate s .prog h = none → spanFault s e .read a n = none → hInst h = 0xFFFF →
      (∀ p < 32, loaderReason s (s.epoch.live + 1) p (hType h == 0x0C) n img = 0) →
      ∃ t, exec (.tblProg e kd ka kb kc) s = .next t ∧ wrote s t e kd 0 ((engine s e).pc + 4) ∧ shadowOnly s t
      ∧ (∀ p < 32, tblGet t (s.epoch.live + 1) (hType h) p (hIndex h) = img)))

open Sys2Proof.Claims in
/-- R127, R207, R213, R234, R238: TBL.INS and TBL.DEL of a static layer-2 entry and of a route, and TBL.FIND of both,
where they are accepted and where they are turned away. An entry that holds the key keeps its live contents, and a route
that is inserted has its result in each of its slices or waits with it to be placed there; results of the live
generation stay. Where the rules leave a point open it follows log entries 45, 50 and 141. -/
def Obligations.KeyedTables : Prop :=
  (∀ (s : State) (e : EngineId) (kd ka kb : KReg), startsDev s e .tbl →
    let h := (kget s e ka).toNat
    let a := (kget s e kb).toNat
    let bs := loadBytes s e a (imageSize (hType h))
    let y := s.epoch.live + 1
    writeGates s .ins h (turnedAway s (.tblIns e kd ka kb) e kd)
    ∧ writeGates s .del h (turnedAway s (.tblDel e kd ka kb) e kd)
    ∧ (tblGate s .ins h = none → spanFault s e .read a (imageSize (hType h)) = none →
      let img := leNat bs
      let d : L2Data := { unit := fieldOf img 73 64, port := fieldOf img 82 74, discardDst := bitOf img 83,
                          discardSrc := bitOf img 84, fixed := true }
      (hType h = 1 → zeroBits img 63 62 = true → zeroBits img 127 85 = true →
        ∀ p x, (l2Find s (l2ImageKey img) = some (p, x)
          ∨ (l2Find s (l2ImageKey img) = none ∧ x = { key := l2ImageKey img } ∧ ∃ b, l2Place s (l2ImageKey img) = some (p, b))) →
        ∃ t, exec (.tblIns e kd ka kb) s = .next t ∧ wrote s t e kd 0 ((engine s e).pc + 4)
        ∧ mhas t.l2.entries p = true ∧ mget {} t.l2.entries p = x.withData y (some d)
        ∧ (∀ k, k ≠ p → mget {} t.l2.entries k = mget {} s.l2.entries k)
        ∧ { t.l2 with entries := s.l2.entries, evictions := s.l2.evictions } = s.l2
        ∧ { t with engines := s.engines, l2 := s.l2, lostEntries := s.lostEntries, badEntries := s.badEntries,
                   perf := s.perf } = s)
      ∧ (hType h = 1 → zeroBits img 63 62 = false ∨ zeroBits img 127 85 = false →
        turnedAway s (.tblIns e kd ka kb) e kd 0x0A)
      ∧ (hType h = 1 → l2Find s (l2ImageKey img) = none → l2Place s (l2ImageKey img) = none →
        zeroBits img 63 62 = true → zeroBits img 127 85 = true → turnedAway s (.tblIns e kd ka kb) e kd 0x06)
      ∧ (hType h = 2 → routeImageOk bs = true →
        let r := (routeOfImage bs).1
        let fresh := (routeSlices s y r).filter (fun n => !sliceHas s n r && !placementQueued s n r)
        (∀ n ∈ fresh, sliceRoom s r n = true) → queuesTake s fresh = true →
        ∃ t, exec (.tblIns e kd ka kb) s = .next t ∧ wrote s t e kd 0 ((engine s e).pc + 4)
        ∧ (∀ n ∈ routeSlices s y r,
            (∃ x ∈ sliceRoutes t n, sameKey r x = true ∧ x.result y = some (routeOfImage bs).2)
            ∨ ∃ p ∈ allPlacements t, p.slice = n ∧ sameKey r p.route = true
                ∧ p.route.result y = some (routeOfImage bs).2)
        ∧ (∀ x, routeFind t s.epoch.live x = routeFind s s.epoch.live x)
        ∧ { t with engines := s.engines, routes := s.routes, perf := s.perf } = s)
      ∧ (hType h = 2 → routeImageOk bs = false → turnedAway s (.tblIns e kd ka kb) e kd 0x0A))
    ∧ (tblGate s .del h = none → spanFault s e .read a (imageSize (hType h)) = none →
      (hType h = 1 → ∀ p q, l2Find s (l2ImageKey (leNat bs)) = some (p, q) →
        (∀ d, q.data y = some d → d.fixed = true → ∃ t, exec (.tblDel e kd ka kb) s = .next t
          ∧ wrote s t e kd 0 ((engine s e).pc + 4)
          ∧ mget {} t.l2.entries p = q.withData y none ∧ (∀ k, k ≠ p → mget {} t.l2.entries k = mget {} s.l2.entries k)
          ∧ { t with engines := s.engines, l2 := s.l2, perf := s.perf } = s)
        ∧ ((∀ d, q.data y = some d → d.fixed = false) → turnedAway s (.tblDel e kd ka kb) e kd 0x05))
      ∧ (hType h = 1 → l2Find s (l2ImageKey (leNat bs)) = none → turnedAway s (.tblDel e kd ka kb) e kd 0x05)
      ∧ (hType h = 2 → routeKeyOk bs = false → turnedAway s (.tblDel e kd ka kb) e kd 0x0A)
      ∧ (hType h = 2 → routeKeyOk bs = true →
        let r := (routeOfImage bs).1
        (routeFind s y r).isSome = true ∨ (allPlacements s).any (fun p => sameKey r p.route) = true →
        ∃ t, exec (.tblDel e kd ka kb) s = .next t ∧ wrote s t e kd 0 ((engine s e).pc + 4)
        ∧ routeFind t y r = none ∧ (∀ n, placementQueued t n r = false)
        ∧ { t with engines := s.engines, routes := s.routes, perf := s.perf } = s)))
  ∧ (∀ (s : State) (e : EngineId) (kd ka kb kc : KReg), startsDev s e .tbl →
    let h := (kget s e ka).toNat
    let a := (kget s e kb).toNat
    let d := (kget s e kc).toNat
    let n := imageSize (hType h)
    tblGate s .find h = none → spanFault s e .read a n = none → spanFault s e .write d n = none →
    (hType h = 2 → routeKeyOk (loadBytes s e a n) = false → turnedAway s (.tblFind e kd ka kb kc) e kd 0x0A)
    ∧ ((hType h = 2 → routeKeyOk (loadBytes s e a n) = true) →
    (∀ v, keyedFind s (hType h) (loadBytes s e a n) = some v → ∃ t, exec (.tblFind e kd ka kb kc) s = .next t
      ∧ wroteOn s t e kd 0 ∧ stored s t e d (leBytes n v)
      ∧ { t with engines := s.engines, press := s.press, cave := s.cave, perf := s.perf } = s)
    ∧ (keyedFind s (hType h) (loadBytes s e a n) = none → turnedAway s (.tblFind e kd ka kb kc) e kd 0x05)))

open Sys2Proof.Claims in
/-- R129, R209 to R219: REHASH starts a rehash of a bank under its seed and its end clears it or halts it, with an
event; the oldest learn is applied; in the clock in which its sweep reaches an entry the Turner clears a hit, counts an idle entry and removes it at its second idle
visit; a flush removes exactly the dynamic entries its selectors name and ends with its event. Which seed a seed of 0
draws is a free value. Where the rules leave a point open it follows log entries 41, 42, 43, 44, 53, 142, 144 and
145. -/
def Obligations.LayerTwoUpkeep : Prop :=
  (∀ (s : State) (e : EngineId) (kd ka kb : KReg), startsDev s e .tbl →
    let b := (kget s e ka).toNat
    let seed := (kget s e kb).toNat
    (b < 2 → seed < 2 ^ 32 → mget 0 s.l2.rehash b ≠ 1 → ∃ t, exec (.rehash e kd ka kb) s = .next t
      ∧ wrote s t e kd 0x08 ((engine s e).pc + 4) ∧ mget 0 t.l2.rehash b = 1
      ∧ mget 0 t.l2.oldSeed b = mget 0 s.l2.seed b ∧ (seed ≠ 0 → mget 0 t.l2.seed b = seed)
      ∧ { t.l2 with rehash := s.l2.rehash, seed := s.l2.seed, oldSeed := s.l2.oldSeed } = s.l2
      ∧ { t with engines := s.engines, l2 := s.l2, freeCtr := s.freeCtr, perf := s.perf } = s)
    ∧ (b < 2 → seed < 2 ^ 32 → mget 0 s.l2.rehash b = 1 → turnedAway s (.rehash e kd ka kb) e kd 0x09)
    ∧ (2 ≤ b ∨ 2 ^ 32 ≤ seed → turnedAway s (.rehash e kd ka kb) e kd 0x0A))
  ∧ (∀ (s : State) (b : Fin 2), mget 0 s.l2.rehash b = 1 → ∃ t, exec (.rehashDone b) s = .next t
    ∧ (mget 0 t.l2.rehash b = 0 ∨ mget 0 t.l2.rehash b = 2) ∧ mget 0 t.l2.seed b = mget 0 s.l2.seed b
    ∧ eventRaised s t
    ∧ ((∀ p ∈ s.l2.entries, p.1 / 2 ^ 20 ≠ b.val) → mget 0 t.l2.rehash b = 0 ∧ t.l2.entries = s.l2.entries)
    ∧ { t with l2 := s.l2, ledger := s.ledger } = s)
  ∧ (∀ (s : State) (key unit port : Nat) (ls : List (Nat × Nat × Nat)), s.l2.learns = (key, unit, port) :: ls →
    ∃ t, exec .learnApply s = .next t ∧ t.l2.learns = ls
    ∧ (∀ p q, l2Find s key = some (p, q) → (q.data s.epoch.live).isSome = true ∨ s.epoch.shadowOpen = true →
      (q.isStatic = true → t = { s with l2 := { s.l2 with learns := ls } })
      ∧ (q.isStatic = false → mget {} t.l2.entries p = { q with c0 := some { unit := unit, port := port }, hit := true,
                                                                c1 := some { unit := unit, port := port } }))
    ∧ (∀ p q, l2Find s key = some (p, q) → q.data s.epoch.live = none → s.epoch.shadowOpen = false →
      mget {} t.l2.entries p
        = { q.withData s.epoch.live (some { unit := unit, port := port }) with hit := true, idle := 0 })
    ∧ (∀ p b, l2Find s key = none → l2Place s key = some (p, b) →
      mget {} t.l2.entries p = { key := key, hit := true, c0 := some { unit := unit, port := port },
                                 c1 := some { unit := unit, port := port } })
    ∧ { t.l2 with entries := s.l2.entries, evictions := s.l2.evictions, learns := s.l2.learns } = s.l2
    ∧ { t with l2 := s.l2, lostEntries := s.lostEntries, badEntries := s.badEntries } = s)
  ∧ (∀ (s : State) (bank : Fin 2) (bucket : Fin 131072) (way : Fin 8) (x : L2Entry),
    let place := bank.val * 2 ^ 20 + bucket.val * 8 + way.val
    let mark := (s.l2.sweepHalf, s.l2.sweepFrom + 1)
    let due := s.l2.sweepFrom + (place * s.l2.sweepHalf + 2097151) / 2097152
    s.l2.entries.find? (fun p => p.1 == place) = some (place, x) → x.isStatic = false → x.mark ≠ mark →
    x.c0.isSome = true ∨ x.c1.isSome = true → due ≤ s.now → s.now < due + 625 → arrivalsWait s = false →
    ∃ t, exec (.turnerVisit bank bucket way) s = .next t
    ∧ (x.hit = true → mget {} t.l2.entries place = { x with hit := false, idle := 0, mark := mark })
    ∧ (x.hit = false → (x.idle = 0 ∨ rwlField s .turner 0 19 0 = 0) →
        mget {} t.l2.entries place = { x with idle := min 255 (x.idle + 1), mark := mark })
    ∧ (x.hit = false → 1 ≤ x.idle → rwlField s .turner 0 19 0 ≠ 0 → mhas t.l2.entries place = false
        ∧ t.l2.removed = (s.l2.removed + 1) % 2 ^ 32)
    ∧ (∀ k, k ≠ place → mget {} t.l2.entries k = mget {} s.l2.entries k)
    ∧ { t.l2 with entries := s.l2.entries, removed := s.l2.removed } = s.l2 ∧ { t with l2 := s.l2 } = s)
  ∧ (∀ (s : State) (word : BitVec 32) (src : Source), accepts s src (.l2b 0) 20 0 word.toNat → word.getLsbD 0 = true →
    s.l2.flush = none →
    let named := fun (key : Nat) (d : L2Data) =>
      (word.getLsbD 1 = true → d.unit = s.roll.unit ∧ d.port = fieldOf word.toNat 12 4)
        ∧ (word.getLsbD 2 = true → key / 2 ^ 48 = fieldOf word.toNat 26 13)
        ∧ (word.getLsbD 3 = true → d.unit = rwField s (.l2b 0) 21 9 0)
    ∃ t, exec (.l2Flush word src) s = .next t ∧ t.l2.flush.isSome = true
    ∧ (∀ p, p ∈ t.l2.entries ↔ p ∈ s.l2.entries
        ∧ (p.2.isStatic = true ∨ ∀ d, (p.2.c0 = some d ∨ p.2.c1 = some d) → ¬ named p.2.key d))
    ∧ { t.l2 with entries := s.l2.entries, flush := none } = s.l2
    ∧ otherRegsKept s t (.l2b 0) 20 ∧ { t with l2 := s.l2, regs := s.regs, perf := s.perf } = s)
  ∧ (∀ (s : State) (n : Nat), s.l2.flush = some n → ∃ t, exec .l2FlushDone s = .next t
    ∧ t.l2 = { s.l2 with flush := none } ∧ eventRaised s t ∧ { t with l2 := s.l2, ledger := s.ledger } = s)

/-- R201, R235 to R237, R251: a shuffler places its oldest queued route and keeps every route that the slice holds; the
scrubber reports and repairs a row that fails parity or that the command says differs, and changes no route; a fragment
entry whose age has passed is gone. Where the rules leave a point open it follows log entries 45, 51 and 141. -/
def Obligations.RouteUpkeep : Prop :=
  (∀ (s : State) (d : Fin 2) (p : Placement) (ps : List Placement),
    (if d.val = 0 then s.routes.queue0 else s.routes.queue1) = p :: ps →
    ∃ t, exec (.placement d) s = .next t
      ∧ t.routes.queue0 = (if d.val = 0 then ps else s.routes.queue0)
      ∧ t.routes.queue1 = (if d.val = 0 then s.routes.queue1 else ps)
      ∧ sliceHas t p.slice p.route = true
      ∧ (∀ x ∈ sliceRoutes s p.slice, sameKey p.route x = false → x ∈ sliceRoutes t p.slice)
      ∧ (∀ x ∈ sliceRoutes t p.slice, x ∈ sliceRoutes s p.slice ∨ sameKey p.route x = true)
      ∧ (∀ n, n ≠ p.slice → sliceRoutes t n = sliceRoutes s n)
      ∧ { t with routes := s.routes, lostEntries := s.lostEntries, badEntries := s.badEntries } = s)
  ∧ (∀ (s : State) (slice : Fin 64) (row : Nat) (mismatch : Bool), row < 40960 →
    let key := tblKey 2 0 (slice.val * 40960 + row)
    (mismatch = true ∨ badEntry s 2 0 (slice.val * 40960 + row) = true →
      ∃ t, exec (.routeScrub slice row mismatch) s = .next t ∧ eventRaised s t
      ∧ (∀ k, k ∈ t.badEntries ↔ k ∈ s.badEntries ∧ k ≠ key) ∧ (∀ k, k ∈ t.lostEntries ↔ k ∈ s.lostEntries ∧ k ≠ key)
      ∧ { t with ledger := s.ledger, badEntries := s.badEntries, lostEntries := s.lostEntries } = s)
    ∧ (mismatch = false → badEntry s 2 0 (slice.val * 40960 + row) = false →
      exec (.routeScrub slice row mismatch) s = .next s))
  ∧ (∀ (s : State) (bucket : Fin 4096) (way : Fin 16),
    let k := 16 * bucket.val + way.val
    let x := mget {} s.tree.frags k
    let due := x.since + rwlField s .frag 0 14 0 * 10 ^ 9
    mhas s.tree.frags k = true → x.awaiting = false →
    (due < s.now → ∃ t, exec (.fragExpiry bucket way) s = .next t ∧ mhas t.tree.frags k = false
      ∧ (∀ j, j ≠ k → mget {} t.tree.frags j = mget {} s.tree.frags j)
      ∧ { t.tree with frags := s.tree.frags } = s.tree ∧ { t with tree := s.tree } = s)
    ∧ (s.now ≤ due → exec (.fragExpiry bucket way) s = .next s))

/-! ## MACs, pipes and the control port -/

/-- R34, R153, R177, R178, R394 to R398, R417, R440: FRAME_RECEIVE on a port that is up. A frame that passes the checks
joins its pipe's FIFO whole, with a time within 2 UI of the tile copy's; one that fails a check, overruns the crossing or
finds the FIFO full or the pipe faulted is counted and changes no pipe; a PAUSE frame acted on stops the port for its
quanta, a PFC frame each priority it names, and 0 quanta end the stop. A port that is not up receives nothing. Where the
rules leave a point open it follows log entries 33 and 34. -/
def Obligations.FrameReception : Prop :=
  ∀ (s : State) (port : LaneId) (bytes : List Byte) (fault : LineFault) (corrected : Nat),
    let p := port.val / 16
    (portUp s port = false → exec (.frameReceive port bytes fault corrected) s = .next s)
    ∧ (portUp s port = true → port.val ∉ s.triad.stopped →
      (macDrop s port bytes fault = none → beAt bytes 12 2 ≠ 0x8808 → fault ≠ .overrun → (pipeOf s p).faulted = false →
        backlogBytes s p + bytes.length ≤ 2 ^ 20 →
        ∃ t f, exec (.frameReceive port bytes fault corrected) s = .next t
        ∧ pipeOf t p = { pipeOf s p with fifo := (pipeOf s p).fifo ++ [f] }
        ∧ f.port = port.val ∧ f.bytes = bytes ∧ f.arrivedAt = s.now ∧ (∀ k, k ≠ p → pipeOf t k = pipeOf s k)
        ∧ (∃ n ≤ 2 * twoUi (modeRate (laneMode s port)), f.time = ((tileTime s port : Int) + (n : Int)
            - (twoUi (modeRate (laneMode s port)) : Int) - portAdj s port 15 0 * 256).toNat)
        ∧ { t with pipes := s.pipes, macs := s.macs, portStats := s.portStats, freeCtr := s.freeCtr } = s)
      ∧ (∀ r, macDrop s port bytes fault = some r → ∃ t, exec (.frameReceive port bytes fault corrected) s = .next t
        ∧ (domainOn s 13 = true → mget 0 t.whey.count r = (mget 0 s.whey.count r + 1) % 2 ^ 64)
        ∧ { t with whey := s.whey, portStats := s.portStats, perf := s.perf } = s)
      ∧ (∀ r, macDrop s port bytes fault = none →
        (fault = .overrun ∧ r = Wh.rxFifoOverrun)
          ∨ (fault ≠ .overrun ∧ beAt bytes 12 2 ≠ 0x8808 ∧ (pipeOf s p).faulted = true ∧ r = Wh.pipeFault)
          ∨ (fault ≠ .overrun ∧ beAt bytes 12 2 ≠ 0x8808 ∧ (pipeOf s p).faulted = false
              ∧ 2 ^ 20 < backlogBytes s p + bytes.length ∧ r = Wh.pipeBacklog) →
        ∃ t, exec (.frameReceive port bytes fault corrected) s = .next t
        ∧ (domainOn s 13 = true → mget 0 t.whey.count r = (mget 0 s.whey.count r + 1) % 2 ^ 64)
        ∧ { t with whey := s.whey, portStats := s.portStats, perf := s.perf } = s)
      ∧ (macDrop s port bytes fault = none → fault ≠ .overrun → beAt bytes 12 2 = 0x8808 → beAt bytes 14 2 = 0x0101 →
        ∃ t, exec (.frameReceive port bytes fault corrected) s = .next t
        ∧ (∀ i < 8, let u := quantaPs s port (beAt bytes (18 + 2 * i) 2)
            let k := 9 * port.val + 1 + i
            if bitOf (beAt bytes 16 2) i then
              (u = 0 → mhas t.sched.stops k = false) ∧ (0 < u → mget 0 t.sched.stops k = s.now + u)
            else mget 0 t.sched.stops k = mget 0 s.sched.stops k)
        ∧ (∀ k, k < 9 * port.val + 1 ∨ 9 * port.val + 9 ≤ k → mget 0 t.sched.stops k = mget 0 s.sched.stops k)
        ∧ { t with sched := s.sched, qm := s.qm, portStats := s.portStats } = s)
      ∧ (macDrop s port bytes fault = none → fault ≠ .overrun → beAt bytes 12 2 = 0x8808 → beAt bytes 14 2 = 1 →
        let u := quantaPs s port (beAt bytes 16 2)
        ∃ t, exec (.frameReceive port bytes fault corrected) s = .next t
        ∧ (u = 0 → mhas t.sched.stops (9 * port.val) = false)
        ∧ (0 < u → mget 0 t.sched.stops (9 * port.val) = s.now + u)
        ∧ (∀ k, k ≠ 9 * port.val → mget 0 t.sched.stops k = mget 0 s.sched.stops k)
        ∧ { t.sched with stops := s.sched.stops } = s.sched
        ∧ { t with sched := s.sched, qm := s.qm, portStats := s.portStats } = s))
    ∧ (portUp s port = true → port.val ∈ s.triad.stopped → ∃ t, exec (.frameReceive port bytes fault corrected) s = .next t
      ∧ (domainOn s 13 = true → mget 0 t.whey.count Wh.headlessStop = (mget 0 s.whey.count Wh.headlessStop + 1) % 2 ^ 64)
      ∧ { t with whey := s.whey, perf := s.perf } = s)

/-- R154, R157, R177, R284, R287, R431, R436, R523: an ingress sequence takes the first frame of its pipe's FIFO, and
drops one whose stored bits fail parity; an enqueue decides the oldest entry of the enqueue path that has arrived there,
posts a frame it accepts to its queue's journal, or puts it at the end of a resident queue's head list, and frees the
descriptor of one it drops; an egress sequence takes the oldest selected frame, and an edited mirror copy that keeps to
max_frame goes to its MAC with its edits. A faulted or paused pipe, or one whose enqueue path is held, starts no frame.
Where the rules leave a point open it follows log entries 8, 37 and 145. -/
def Obligations.PipeSequences : Prop :=
  (∀ (s : State) (p : PipeId) (f : RxFrame) (fs : List RxFrame), (pipeOf s p).fifo = f :: fs → f.port / 16 = p.val →
    ((pipeOf s p).faulted = false → (pipeOf s p).paused = false → domainOn s (4 + p.val / 8) = true →
      pathHeld s p = false → ∀ flip, ∃ t, exec (.ingressSequence p flip) s = .next t ∧ t.engines = s.engines
      ∧ t.epoch = s.epoch ∧ t.regs = s.regs ∧ t.bank0 = s.bank0 ∧ t.bank1 = s.bank1
      ∧ (flip ≠ .logic → (pipeOf t p).fifo = fs)
      ∧ (flip = .stored → t.enqPath = s.enqPath ∧ t.descs = s.descs ∧ t.vat = s.vat ∧ t.press = s.press
        ∧ (domainOn s 13 = true → mget 0 t.whey.count Wh.parity = (mget 0 s.whey.count Wh.parity + 1) % 2 ^ 64)))
    ∧ (∀ flip, (pipeOf s p).faulted = true ∨ (pipeOf s p).paused = true ∨ domainOn s (4 + p.val / 8) = false
        ∨ pathHeld s p = true → exec (.ingressSequence p flip) s = .next s))
  ∧ (∀ (s : State) (it : EnqItem) (its : List EnqItem), s.enqPath = it :: its →
    let d := desc s it.desc
    let q := d.rind.queue
    (∀ flip, s.now < it.ready → exec (.enqueue flip) s = .next s)
    ∧ (it.ready ≤ s.now → enqueueDecision s q d.rind.epoch d.rind.dropPrec d.rind.length = none →
      (qst s q).resident = true → (qst s q).paged = false → (qst s q).head ≠ [] → it.desc ∉ (qst s q).head →
      (∀ j ∈ s.qm.journal, j.1 ≠ q) → (qcfg s q).threshKib = 0 ∨ anyChanReady s = false →
      ∃ t, exec (.enqueue false) s = .next t ∧ t.enqPath = its ∧ t.qm.journal = s.qm.journal
      ∧ (qst t q).head = (qst s q).head ++ [it.desc]
      ∧ (qst t q).depth = (qst s q).depth + depthUnits d.rind.length
      ∧ (∀ k, k ≠ q → qst t k = qst s k)
      ∧ (desc t it.desc).holderQueue = q ∧ (desc t it.desc).enqueuedAt = s.now
      ∧ (∀ j, j ≠ it.desc → (qst s q).head.getLast? ≠ some j → desc t j = desc s j)
      ∧ mget {} t.vat.held (handle 7 it.desc) = { owner := queueOwner q, holds := 1 }
      ∧ { t with enqPath := s.enqPath, qm := s.qm, descs := s.descs, vat := s.vat, roll := s.roll, perf := s.perf } = s)
    ∧ (it.ready ≤ s.now → enqueueDecision s q d.rind.epoch d.rind.dropPrec d.rind.length = none →
      (qst s q).resident = false →
      ∃ t, exec (.enqueue false) s = .next t ∧ t.enqPath = its
      ∧ t.qm = { s.qm with journal := s.qm.journal ++ [(q, it.desc)] }
      ∧ (desc t it.desc).holderQueue = q ∧ (desc t it.desc).enqueuedAt = s.now
      ∧ (∀ j, j ≠ it.desc → desc t j = desc s j)
      ∧ mget {} t.vat.held (handle 7 it.desc) = { owner := queueOwner q, holds := 1 }
      ∧ { t with enqPath := s.enqPath, qm := s.qm, descs := s.descs, vat := s.vat, roll := s.roll, perf := s.perf } = s)
    ∧ (∀ flip r, it.ready ≤ s.now → (flip = true ∨ enqueueDecision s q d.rind.epoch d.rind.dropPrec d.rind.length = some r) →
      ∃ t, exec (.enqueue flip) s = .next t ∧ t.enqPath = its ∧ mhas t.descs it.desc = false
      ∧ (∀ j, j ≠ it.desc → desc t j = desc s j)
      ∧ { t with enqPath := s.enqPath, descs := s.descs, vat := s.vat, whey := s.whey, perf := s.perf } = s))
  ∧ (∀ (s : State) (p : PipeId) (it : EgressItem) (its : List EgressItem), (pipeOf s p).egress = it :: its →
    ((pipeOf s p).faulted = false → ∀ flip, ∃ t, exec (.egressSequence p flip) s = .next t
      ∧ (flip ≠ .logic → (pipeOf t p).egress = its)
      ∧ t.engines = s.engines ∧ t.epoch = s.epoch ∧ t.regs = s.regs ∧ t.bank0 = s.bank0 ∧ t.bank1 = s.bank1)
    ∧ (∀ flip, (pipeOf s p).faulted = true → exec (.egressSequence p flip) s = .next s)
    ∧ (∀ bs, (pipeOf s p).faulted = false → descOk s (desc s it.desc) = true → (desc s it.desc).rind.version = 1 →
      frameBad s (desc s it.desc) = false → (desc s it.desc).edit = some bs →
      bs.length + 4 ≤ pipeField s (it.port / 16) (.mac it.port) 0 13 0 →
      ∃ t f, exec (.egressSequence p .clean) s = .next t
      ∧ (macOf t it.port).queue = (macOf s it.port).queue ++ [f] ∧ f.bytes = padFrame bs ∧ f.desc = some it.desc
      ∧ { t with pipes := s.pipes, macs := s.macs, qm := s.qm, sched := s.sched } = s))

/-- R396, R400, R401, R420, R421: a port sends a waiting flow-control frame first and otherwise its oldest data frame,
with its frame check sequence and, where its program asked for one, a transmit record at the end of the group's queue; a generated stop is sent again while the backlog stays high; MAC_FC_TX_CMD asks for one
flow-control frame; a port with nothing to send rests, and lpi_rx follows the partner. Where the rules leave a point
open it follows log entries 7, 136 and 145. -/
def Obligations.FrameTransmission : Prop :=
  (∀ (s : State) (port : LaneId), portUp s port = true → port.val ∉ s.triad.stopped →
    (macOf s port).busyUntil ≤ s.now → (mget {} s.lanes port.val).txRest = false →
    (mget {} s.lanes port.val).wakeUntil ≤ s.now →
    (∀ q, (macOf s port).fcWaiting = some q → ∃ t, exec (.frameTransmit port) s = .next t
      ∧ t.out = s.out ++ [.frame port (fcFrame s port q ++ fcsOf (fcFrame s port q))]
      ∧ (macOf t port).fcWaiting = none ∧ (macOf t port).xoffSent = decide (q ≠ 0)
      ∧ (macOf t port).queue = (macOf s port).queue ∧ (∀ k, k ≠ port.val → macOf t k = macOf s k)
      ∧ { t with out := s.out, macs := s.macs, portStats := s.portStats } = s)
    ∧ (∀ f fs, (macOf s port).fcWaiting = none → (macOf s port).queue = f :: fs → f.ready ≤ s.now →
      ∃ t bs, exec (.frameTransmit port) s = .next t ∧ t.out = s.out ++ [.frame port (bs ++ fcsOf bs)]
      ∧ (f.oneStep = none → bs = f.bytes) ∧ (macOf t port).queue = fs
      ∧ (∀ k, k ≠ port.val → macOf t k = macOf s k) ∧ (f.desc = none → t.vat = s.vat ∧ t.descs = s.descs)
      ∧ (f.record = none → t.time = s.time)
      ∧ (∀ id, f.record = some id → let q := mget {} s.time.tsq (port.val / 16)
        q.recs.length < 128 → ∃ r, mget {} t.time.tsq (port.val / 16)
            = { q with recs := q.recs ++ [r], recSeq := (q.recSeq + 1) % 65536 }
          ∧ r.identifier = id ∧ r.port = port.val ∧ r.recSeq = q.recSeq ∧ r.oneStep = f.oneStep.isSome
          ∧ r.aborted = false ∧ r.holdover = inHoldover s ∧ r.notSet = s.time.notSet)
      ∧ { t with out := s.out, macs := s.macs, portStats := s.portStats, vat := s.vat, descs := s.descs, time := s.time,
                 ledger := s.ledger, freeCtr := s.freeCtr } = s))
  ∧ (∀ (s : State) (port : LaneId), (macOf s port).backlogStop = true → fcEnabled s port = true →
    pipeField s (port.val / 16) (.mac port.val) 2 26 16 < backlogKib s (port.val / 16) →
    (macOf s port).stopAt + quantaPs s port (txQuanta s port) / 2 ≤ s.now → ∃ t, exec (.pauseRefresh port) s = .next t
    ∧ macOf t port = { macOf s port with stopAt := s.now, fcWaiting := some (txQuanta s port) }
    ∧ (∀ k, k ≠ port.val → macOf t k = macOf s k) ∧ { t with macs := s.macs } = s)
  ∧ (∀ (s : State) (port : LaneId) (resume : Bool) (src : Source),
    accepts s src (.mac port.val) 3 0 (1 + 2 * b2n resume) → (macOf s port).fcWaiting = none →
    ∃ t, exec (.macFcTxSend port resume src) s = .next t
    ∧ (macOf t port).fcWaiting = some (if resume then 0 else txQuanta s port)
    ∧ (resume = false → (macOf t port).xoffSent = true) ∧ (macOf t port).queue = (macOf s port).queue
    ∧ (∀ k, k ≠ port.val → macOf t k = macOf s k) ∧ otherRegsKept s t (.mac port.val) 3
    ∧ { t with macs := s.macs, regs := s.regs, perf := s.perf } = s)
  ∧ (∀ (s : State) (port : LaneId), portUp s port = true → lpiMode (laneMode s port) = true →
    pipeField s (port.val / 16) (.mac port.val) 0 18 18 = 1 →
    pipeField s (port.val / 16) (.gate (port.val / 16)) (16 * (port.val % 16)) 0 0 = 0 → nothingToSend s port = true →
    (macOf s port).idleSince + pipeField s (port.val / 16) (.mac port.val) 5 9 0 * 10 ^ 6 ≤ s.now →
    arrivalsWait s = false → ∃ t, exec (.lpiIdleExpiry port) s = .next t ∧ macOf t port = { macOf s port with lpiTx := true }
    ∧ (∀ k, k ≠ port.val → macOf t k = macOf s k) ∧ { t with macs := s.macs } = s)
  ∧ (∀ (s : State) (port : LaneId) (lpi : Bool), portUp s port = true → ∃ t, exec (.lpiRxChange port lpi) s = .next t
    ∧ macOf t port = { macOf s port with lpiRx := lpi } ∧ (∀ k, k ≠ port.val → macOf t k = macOf s k)
    ∧ { t with macs := s.macs } = s)

/-- R171, R269, R459, R461, R463: the control port takes the head frame of a control queue: a wrong descriptor, a frame
with a bad byte, a Rind of another version, and a frame that is no control frame and that no program asked for, are
dropped and the descriptor freed; a frame whose tag fails is counted and not applied; a duplicate is counted and not
applied again; a frame ahead of the expected one is held; a frame of a session that may not begin is stale; the next
expected frame of its session is applied, and a malformed one uses up its number. Where the rules leave a
point open it follows log entries 112 and 114. -/
def Obligations.ControlFrames : Prop :=
  ∀ (s : State) (q : QueueId) (i : Nat) (is : List Nat), domainOn s 1 = true → rwField s .ctlport 0 0 0 = 1 →
    (qcfg s q).role = 3 → (qst s q).resident = true → (qst s q).head = i :: is →
    (descOk s (desc s i) = false → ∃ t, exec (.controlFrame q) s = .next t ∧ mhas t.descs i = false ∧ t.ctl = s.ctl
      ∧ t.engines = s.engines)
    ∧ (∀ r, descOk s (desc s i) = true → (frameBad s (desc s i) = true ∧ r = Wh.parity)
        ∨ (frameBad s (desc s i) = false ∧ (desc s i).rind.version ≠ 1 ∧ r = Wh.rindInvalid) →
      ∃ t, exec (.controlFrame q) s = .next t ∧ mhas t.descs i = false ∧ t.ctl = s.ctl ∧ t.engines = s.engines
      ∧ (domainOn s 13 = true → mget 0 t.whey.count r = (mget 0 s.whey.count r + 1) % 2 ^ 64))
    ∧ (descOk s (desc s i) = true → frameBad s (desc s i) = false → (desc s i).rind.version = 1 →
    let bs := frameBytes s (desc s i)
    let body := bs.take (bs.length - 4)
    (ctlTypeAt bs = none → s.ctl.listener = none → ∃ t, exec (.controlFrame q) s = .next t ∧ mhas t.descs i = false
      ∧ t.ctl = s.ctl ∧ t.engines = s.engines)
    ∧ (∀ e, ctlTypeAt bs = some e → s.triad.mode ≠ .halted → leAt body (e + 2) 1 = 1 → leAt body (e + 3) 1 % 2 = 0 →
      bs.length ≤ 9216 → e + 38 ≤ body.length →
      let c := leAt body (e + 4) 1
      let seq := beAt body (e + 10) 4
      let ops := frameOps (beAt body (e + 18) 2) bs.length ((body.take (body.length - 16)).drop (e + 22))
      (ctlTagOk s (e + 2) body = false → ∃ t, exec (.controlFrame q) s = .next t
        ∧ t.ctl.fails = (s.ctl.fails + 1) % 2 ^ 32 ∧ t.ctl.chans = s.ctl.chans ∧ t.ctl.applied = s.ctl.applied
        ∧ t.engines = s.engines)
      ∧ (ctlTagOk s (e + 2) body = true → (ctlChan s c).session = some (beAt body (e + 6) 4) →
        (seq < (ctlChan s c).next → ∃ t, exec (.controlFrame q) s = .next t
          ∧ t.ctl.duplicates = (s.ctl.duplicates + 1) % 2 ^ 32 ∧ t.ctl.applied = s.ctl.applied
          ∧ (ctlChan t c).next = (ctlChan s c).next ∧ t.engines = s.engines)
        ∧ ((ctlChan s c).next < seq → seq ≤ (ctlChan s c).next + 64 → (∀ f ∈ (ctlChan s c).held, f.seq ≠ seq) →
          ∃ t f, exec (.controlFrame q) s = .next t ∧ f.seq = seq ∧ f.ops = ops
          ∧ (∀ g, g ∈ (ctlChan t c).held ↔ g = f ∨ g ∈ (ctlChan s c).held)
          ∧ (ctlChan t c).next = (ctlChan s c).next ∧ t.ctl.applied = s.ctl.applied ∧ t.engines = s.engines)
        ∧ (seq = (ctlChan s c).next → ops = some [] ∨ ops = none → (ctlChan s c).held = [] →
          ∃ t, exec (.controlFrame q) s = .next t ∧ (ctlChan t c).next = (ctlChan s c).next + 1
          ∧ (∀ k, k ≠ c → ctlChan t k = ctlChan s k) ∧ t.ctl.applied = s.ctl.applied ∧ t.engines = s.engines))
      ∧ (ctlTagOk s (e + 2) body = true → (ctlChan s c).session ≠ some (beAt body (e + 6) 4) → seq ≠ 0 →
        ∃ t, exec (.controlFrame q) s = .next t ∧ t.ctl.stale = (s.ctl.stale + 1) % 2 ^ 32
        ∧ t.ctl.chans = s.ctl.chans ∧ t.ctl.applied = s.ctl.applied ∧ t.engines = s.engines)))

/-! ## The fabric -/

namespace Sys2Proof.Claims

/-- The bytes a list of grants still covers. -/
def grantBytes (gs : List (Nat × Nat × Nat)) : Nat := (gs.map (fun g => g.2.2)).foldl (· + ·) 0

end Sys2Proof.Claims

open Sys2Proof.Claims in
/-- R55, R260, R269, R332, R335 to R338: a VOQ asks for its whole backlog; a grant is issued to the next source with
demand and expires with its lease, after the arrivals of its clock; grants held too long are discarded; a head that its
grants of the last 150 µs cover is sent, spends exactly its length and its Rind from them, and its descriptor returns; a
wrong or bad head is dropped and spends nothing. Where the rules leave a point open it follows log entries 15, 58 and
145. -/
def Obligations.FabricCredit : Prop :=
  (∀ (s : State) (q : QueueId), fabricOn s = true → s.roll.admitted = true → (qcfg s q).role = 1 →
    ((raiseCount s q).count ≠ (raiseCount s q).sentCount
      ∧ ((raiseCount s q).sentAt = 0 ∨ (raiseCount s q).sentAt - 1 + 10 ^ 6 ≤ s.now))
      ∨ ((raiseCount s q).sentAt ≠ 0 ∧ (raiseCount s q).sentAt - 1 + 10 ^ 8 ≤ s.now) →
    ∃ t, exec (.requestSend q) s = .next t ∧ backlog s q ≤ (voqOf t q).asked
    ∧ voqOf t q = { raiseCount s q with sentAt := s.now + 1, sentCount := (raiseCount s q).count }
    ∧ (∀ k, k ≠ q.val → voqOf t k = voqOf s k)
    ∧ { t.fabric with voqs := s.fabric.voqs, links := s.fabric.links } = s.fabric
    ∧ { t with fabric := s.fabric, out := s.out, perf := s.perf } = s)
  ∧ (∀ (s : State) (q : QueueId) (u : Nat), fabricOn s = true → q.val / 1024 = s.roll.unit → (qcfg s q).role = 2 →
    (qst s q).depth * 64 + outstanding s q < rwlField s .fabric 5 13 0 * 1024 → nextSource s q = some u →
    (s.fabric.grants.filter (fun g => g.unit == u)).length < 32768 → usable s (routeMask s false u) u ≠ [] →
    canClaim s 0 2 40 = true → canClaim s 7 2 40 = true → isDeclared s (ownerName 4 (queueSide s q)) = false →
    (∀ l ∈ s.fabric.late, ¬ (l.1 = u ∧ l.2.2.1.queue = q.val)) → queueSide s q ≤ 1 →
    ∃ t g, exec (.grantIssue q) s = .next t ∧ t.fabric.grants = s.fabric.grants ++ [g]
    ∧ g.unit = u ∧ g.queue = q.val ∧ g.id = mget 0 s.fabric.nextGrant u ∧ g.left = 4096 ∧ g.issuedAt = s.now
    ∧ mget 0 t.fabric.granted (streamKey u q) = (mget 0 s.fabric.granted (streamKey u q) + 1) % 2 ^ 32
    ∧ { t with fabric := s.fabric, vat := s.vat, out := s.out, freeCtr := s.freeCtr, perf := s.perf } = s)
  ∧ (∀ (s : State) (u : Fin 1024) (id : BitVec 16) (g : Grant),
    s.fabric.grants.find? (fun g => g.unit == u.val && g.id == id.toNat) = some g → g.issuedAt + 200 * 10 ^ 6 ≤ s.now →
    arrivalsWait s = false → ∃ t, exec (.leaseExpiry u id) s = .next t ∧ t.fabric.grants = s.fabric.grants.erase g
    ∧ { t.fabric with grants := s.fabric.grants, reserve := s.fabric.reserve } = s.fabric
    ∧ { t with fabric := s.fabric, vat := s.vat } = s)
  ∧ (∀ (s : State) (q : QueueId), (∃ g ∈ (voqOf s q).grants, g.2.1 + 150 * 10 ^ 6 ≤ s.now) →
    ∃ t, exec (.grantAgeExpiry q) s = .next t
    ∧ (∀ g, g ∈ (voqOf t q).grants ↔ g ∈ (voqOf s q).grants ∧ s.now < g.2.1 + 150 * 10 ^ 6)
    ∧ (∀ k, k ≠ q.val → voqOf t k = voqOf s k) ∧ { t.fabric with voqs := s.fabric.voqs } = s.fabric
    ∧ { t with fabric := s.fabric } = s)
  ∧ (∀ (s : State) (q : QueueId) (i : Nat) (is : List Nat), (qst s q).head = i :: is →
    voqEligible s q (desc s i) = true →
    (descOk s (desc s i) = false ∨ frameBad s (desc s i) = true → ∃ t, exec (.fabricSend q) s = .next t
      ∧ mhas t.descs i = false ∧ t.fabric.voqs = s.fabric.voqs ∧ t.fabric.nextTag = s.fabric.nextTag ∧ t.out = s.out
      ∧ t.engines = s.engines)
    ∧ (descOk s (desc s i) = true → frameBad s (desc s i) = false →
    ∃ t, exec (.fabricSend q) s = .next t
    ∧ mget 0 t.fabric.nextTag (q.val / 1024) = (mget 0 s.fabric.nextTag (q.val / 1024) + 1) % 2 ^ 24
    ∧ grantBytes (voqOf t q).grants + (desc s i).rind.length + 40 = grantBytes (freshGrants s q)
    ∧ (∀ k, k ≠ q.val → voqOf t k = voqOf s k) ∧ mhas t.descs i = false
    ∧ (is = [] → (qst s q).paged = false → (qst t q).head = [])
    ∧ t.engines = s.engines ∧ t.epoch = s.epoch))

/-- R52, R55, R326, R328, R330, R335, R337, R340: a cell that fails its CRC is counted and asks for a replay; a cell out
of sequence leaves the expected number; one whose header says nothing a receiver can use is discarded and counted; an
accepted WITHDRAW cell replaces the peer's map, a REQUEST sets its queue's request count, a GRANT adds its grants, and a
DATA cell joins its frame; a NAK replays, and after 16 replays that did not advance it kills the link; an idle link sends
a LINK cell; a link without cells, or whose replay buffer fails parity, dies; a frame in assembly and a reorder hold end
at their time. Where the rules leave a point open it follows log entries 15, 56, 57, 145 and 147. -/
def Obligations.LinkCells : Prop :=
  (∀ (s : State) (link : LaneId) (bytes : List Byte) (msg : FabricMsg) (flip : Bool),
    let n := link.val
    let x := linkOfNo s n
    let lost := (s.fabric.cellDrops + 1) % 2 ^ 32
    let c := (parseCell bytes msg).1
    (x.up = false ∨ fabricOn s = false → exec (.cellReceive link bytes msg flip) s = .next s)
    ∧ (x.up = true → fabricOn s = true → bytes.length ≠ 276 ∨ beAt bytes 272 4 ≠ crc32c 0 (bytes.take 272) →
      ∃ t, exec (.cellReceive link bytes msg flip) s = .next t
      ∧ (linkOfNo t n).crcErrors = (x.crcErrors + 1) % 2 ^ 32 ∧ (linkOfNo t n).rxSeq = x.rxSeq
      ∧ (n ∉ s.triad.stopped → ∃ bs, t.out = s.out ++ [.cell n bs] ∧ byteAt bs 16 = 1)
      ∧ (∀ k, k ≠ n → linkOfNo t k = linkOfNo s k) ∧ { t with fabric := s.fabric, out := s.out, perf := s.perf } = s)
    ∧ (x.up = true → fabricOn s = true → bytes.length = 276 → beAt bytes 272 4 = crc32c 0 (bytes.take 272) →
      (c.type ≠ 0 → c.seq ≠ x.rxSeq → ∃ t, exec (.cellReceive link bytes msg flip) s = .next t
        ∧ (linkOfNo t n).rxSeq = x.rxSeq ∧ (linkOfNo t n).heardAt = s.now)
      ∧ (c.type ≠ 0 → c.seq = x.rxSeq → (6 < c.type ∨ c.hops = 0 ∨ 256 < c.length ∨ (c.type = 1 ∧ 64 < c.index)
          ∨ flip = true) →
        ∃ t, exec (.cellReceive link bytes msg flip) s = .next t ∧ t.fabric.cellDrops = lost
        ∧ (linkOfNo t n).rxSeq = (c.seq + 1) % 4096 ∧ t.fabric.partialFrames = s.fabric.partialFrames
        ∧ t.engines = s.engines)
      ∧ (c.type = 6 → c.hops ≠ 0 → c.length ≤ 256 → c.seq = x.rxSeq → flip = false →
        ∃ t, exec (.cellReceive link bytes msg flip) s = .next t
        ∧ (linkOfNo t n).rxSeq = (c.seq + 1) % 4096 ∧ (linkOfNo t n).heardAt = s.now
        ∧ (∀ d, d ∈ (linkOfNo t n).withdrawn ↔ d < 1024 ∧ bitOf (byteAt c.payload (d / 8)).toNat (d % 8) = true))
      ∧ (c.type = 1 → c.hops ≠ 0 → c.length ≤ 256 → c.index ≤ 64 → c.seq = x.rxSeq → flip = false → c.dest = s.roll.unit → s.roll.numbered = true →
        let k := c.source * 2 ^ 24 + c.tag
        mhas s.fabric.partialFrames k = false → c.last = false →
        ∃ t, exec (.cellReceive link bytes msg flip) s = .next t
        ∧ (linkOfNo t n).rxSeq = (c.seq + 1) % 4096 ∧ mhas t.fabric.partialFrames k = true
        ∧ mget [] (mget {} t.fabric.partialFrames k).cells c.index = c.payload.take c.length
        ∧ (mget {} t.fabric.partialFrames k).since = s.now)
      ∧ (c.hops ≠ 0 → c.length = 8 → c.seq = x.rxSeq → flip = false → c.dest = s.roll.unit → s.roll.numbered = true →
        let v := beAt c.payload 0 8
        (c.type = 2 → ∃ t, exec (.cellReceive link bytes msg flip) s = .next t
          ∧ mget 0 t.fabric.received (streamKey c.source (s.roll.unit * 1024 + fieldOf v 63 54)) = fieldOf v 31 0
          ∧ t.fabric.voqs = s.fabric.voqs ∧ t.fabric.grants = s.fabric.grants ∧ t.engines = s.engines)
        ∧ (c.type = 3 →
          let q := c.source * 1024 + fieldOf v 63 54
          ∃ t, exec (.cellReceive link bytes msg flip) s = .next t
          ∧ (voqOf t q).grants = (voqOf s q).grants
              ++ (List.range (fieldOf v 37 32)).map (fun i => ((fieldOf v 53 38 + i) % 65536, s.now, 4096))
          ∧ (∀ k, k ≠ q → voqOf t k = voqOf s k) ∧ t.fabric.received = s.fabric.received ∧ t.engines = s.engines))
      ∧ (c.type = 0 → bitOf (byteAt c.payload 0).toNat 0 = true → (parseCell bytes msg).2.1 = false →
        (x.stuck < 16 → ∃ t, exec (.cellReceive link bytes msg flip) s = .next t
          ∧ (linkOfNo t n).replays = (x.replays + 1) % 2 ^ 32 ∧ (linkOfNo t n).stuck = x.stuck + 1
          ∧ (linkOfNo t n).rxSeq = x.rxSeq ∧ t.engines = s.engines)
        ∧ (16 ≤ x.stuck → ∃ t, exec (.cellReceive link bytes msg flip) s = .next t
          ∧ (linkOfNo t n).up = false ∧ (linkOfNo t n).dead = true ∧ (linkOfNo t n).replay = []))))
  ∧ (∀ (s : State) (link : LaneId), (linkOfNo s link).up = true → fabricOn s = true → txAsleep s link = false →
    (linkOfNo s link).waiting = [] → (linkOfNo s link).sentAt + 10 ^ 6 ≤ s.now →
    ∃ t bs, exec (.linkCellEmit link false) s = .next t ∧ t.out = s.out ++ [.cell link bs]
    ∧ (linkOfNo t link).sentAt = s.now ∧ (∀ k, k ≠ link.val → linkOfNo t k = linkOfNo s k)
    ∧ { t with fabric := s.fabric, out := s.out, perf := s.perf } = s)
  ∧ (∀ (s : State) (link : LaneId), (linkOfNo s link).up = true → (linkOfNo s link).replay ≠ [] →
    ∃ t, exec (.linkCellEmit link true) s = .next t ∧ (linkOfNo t link).up = false ∧ (linkOfNo t link).dead = true
    ∧ (linkOfNo t link).replay = [] ∧ (linkOfNo t link).deaths = ((linkOfNo s link).deaths + 1) % 2 ^ 32)
  ∧ (∀ (s : State) (link : LaneId), (linkOfNo s link).up = true → (laneOf s link).rxRest = false →
    (linkOfNo s link).heardAt + 10 * 10 ^ 6 ≤ s.now → arrivalsWait s = false →
    ∃ t, exec (.linkNoCellTimeout link) s = .next t ∧ (linkOfNo t link).up = false ∧ (linkOfNo t link).dead = true
    ∧ (linkOfNo t link).deaths = ((linkOfNo s link).deaths + 1) % 2 ^ 32)
  ∧ (∀ (s : State) (unit : Fin 1024) (tag : BitVec 24),
    let k := unit.val * 2 ^ 24 + tag.toNat
    mhas s.fabric.partialFrames k = true → (mget {} s.fabric.partialFrames k).since + 100 * 10 ^ 6 ≤ s.now →
    arrivalsWait s = false → ∃ t, exec (.assemblyTimeout unit tag) s = .next t ∧ mhas t.fabric.partialFrames k = false
    ∧ (∀ j, j ≠ k → mget {} t.fabric.partialFrames j = mget {} s.fabric.partialFrames j)
    ∧ { t.fabric with partialFrames := s.fabric.partialFrames } = s.fabric
    ∧ (domainOn s 13 = true → mget 0 t.whey.count Wh.linkLost = (mget 0 s.whey.count Wh.linkLost + 1) % 2 ^ 64)
    ∧ { t with fabric := s.fabric, whey := s.whey, perf := s.perf } = s)
  ∧ (∀ (s : State) (unit : Fin 1024) (q : QueueId) (h : HeldFrame) (hs : List HeldFrame),
    let k := streamKey unit.val q.val
    heldOf s k = h :: hs → arrivalsWait s = false →
    (s.now < h.due → exec (.reorderHoldExpiry unit q) s = .next s)
    ∧ (h.due ≤ s.now → h.seq < 2 ^ 32 → epochDiff s (desc s h.desc) = 0 →
      ∃ t, exec (.reorderHoldExpiry unit q) s = .next t ∧ (heldOf t k).length ≤ hs.length
      ∧ (∃ its, t.enqPath = s.enqPath ++ its ∧ (its.map (fun i => i.desc)).head? = some h.desc
          ∧ ∀ i ∈ its, i.ready = s.now + 625)
      ∧ (domainOn s 13 = true → mget 0 t.whey.count Wh.reorderLost
          = (mget 0 s.whey.count Wh.reorderLost + seqAfter h.seq (expectedOf s k)) % 2 ^ 64)
      ∧ t.engines = s.engines ∧ t.epoch = s.epoch ∧ t.qm = s.qm))

namespace Sys2Proof.Claims

/-- The incarnation of a number's next admission: one above the incarnation that the roll call holds for it, which it
keeps plus 1, or with none above the one announced (R347). -/
def nextOf (s : State) (u announced : Nat) : Nat :=
  if mget 0 s.roll.given u = 0 then (announced + 1) % 256 else mget 0 s.roll.given u % 256

end Sys2Proof.Claims

open Sys2Proof.Claims in
/-- R344 to R348, R352, R353: announcements and BEATs go out at their intervals; the master takes its oldest request,
admits what the plan and the versions allow and refuses the rest with an event; a unit that starts the system admits
itself; a unit not heard of in time is declared lost. Where the rules leave a point open it follows log entries 60, 61,
82, 145 and 146. -/
def Obligations.RollCall : Prop :=
  (∀ (s : State), fabricOn s = true → s.roll.announcedAt + 10 ^ 9 ≤ s.now → ∃ t, exec .rollAnnounce s = .next t
    ∧ t.roll.announcedAt = s.now
    ∧ { t.roll with announcedAt := s.roll.announcedAt, masterId := s.roll.masterId, master := s.roll.master } = s.roll
    ∧ { t with roll := s.roll, fabric := s.fabric, out := s.out, perf := s.perf } = s)
  ∧ (∀ (s : State), fabricOn s = true → s.roll.admitted = true →
    s.roll.beatAt + rwlField s .fabric 4 9 0 * 10 ^ 6 ≤ s.now → ∃ t, exec .beatSend s = .next t
    ∧ t.roll = { s.roll with beatAt := s.now }
    ∧ { t with roll := s.roll, fabric := s.fabric, out := s.out, perf := s.perf } = s)
  ∧ (∀ (s : State) (at0 link : Nat) (j : JoinInfo) (rs : List (Nat × Nat × JoinInfo)),
    s.roll.requests = (at0, link, j) :: rs →
    (s.roll.master = false → exec .joinRequest s = .next { s with roll := { s.roll with requests := rs } })
    ∧ (∀ u, s.roll.master = true → joinReason { s with roll := { s.roll with requests := rs } } j = 0 →
      planned s j.id.toNat = some u → ∃ t, exec .joinRequest s = .next t ∧ t.roll.requests = rs
      ∧ mget 0 t.roll.given u = (nextOf s u j.incarnation) + 1
      ∧ (∃ m, (j.id.toNat, u, m) ∈ t.roll.admittedIds) ∧ eventRaised s t
      ∧ { t with roll := s.roll, fabric := s.fabric, out := s.out, ledger := s.ledger, perf := s.perf } = s)
    ∧ (s.roll.master = true → joinReason { s with roll := { s.roll with requests := rs } } j ≠ 0 →
      ∃ t, exec .joinRequest s = .next t ∧ t.roll = { s.roll with requests := rs } ∧ eventRaised s t
      ∧ { t with roll := s.roll, fabric := s.fabric, out := s.out, ledger := s.ledger, perf := s.perf } = s))
  ∧ (∀ (s : State), fabricOn s = true → s.roll.admitted = false → s.roll.joinAt + 10 ^ 9 ≤ s.now →
    flipsOf s .fabric 2 = 0 → flipsOf s .fabric 3 = 0 →
    let s0 := followMaster { s with roll := { s.roll with joinAt := s.now } }
    (coldMaster s0 = none → ∃ t, exec .joinRetry s = .next t ∧ t.roll = s0.roll ∧ t.roll.joinAt = s.now
      ∧ { t with roll := s.roll, fabric := s.fabric, out := s.out, perf := s.perf } = s)
    ∧ (∀ u, coldMaster s0 = some u → ∃ t, exec .joinRetry s = .next t ∧ t.roll.admitted = true ∧ t.roll.unit = u
      ∧ t.roll.incarnation = nextOf s u s.roll.lastIncarnation ∧ t.roll.systemLevel = 1
      ∧ t.roll.joinAt = s.now ∧ eventRaised s t ∧ t.engines = s.engines))
  ∧ (∀ (s : State) (unit : Fin 1024), (peerOf s unit).liveInc = true → unit.val ≠ s.roll.unit →
    (peerOf s unit).heardAt + rwlField s .fabric 4 9 0 * rwlField s .fabric 4 13 10 * 10 ^ 6 ≤ s.now →
    arrivalsWait s = false →
    ∃ t, exec (.unitLossTimeout unit) s = .next t
    ∧ peerOf t unit = { peerOf s unit with liveInc := false, lost := true, beatSeen := false }
    ∧ (∀ k, k ≠ unit.val → peerOf t k = peerOf s k) ∧ t.fabric.unitsLost = (s.fabric.unitsLost + 1) % 2 ^ 32
    ∧ (∀ p ∈ t.fabric.partialFrames, p.1 / 2 ^ 24 ≠ unit.val) ∧ (∀ l ∈ t.fabric.late, l.1 ≠ unit.val)
    ∧ t.engines = s.engines)

/-! ## Lanes -/

namespace Sys2Proof.Claims

/-- Of the machine only lanes have changed, and what follows a lane's clock: the squelched clock outputs and their
events (R426). -/
def lanesOnly (s t : State) : Prop :=
  { t.time with squelched := s.time.squelched } = s.time
    ∧ { t with lanes := s.lanes, time := s.time, ledger := s.ledger } = s

/-- Every lane but `n` is as it was. -/
def otherLanesKept (s t : State) (n : Nat) : Prop := ∀ k, k ≠ n → laneOf t k = laneOf s k

/-- Lane `n` has a new attempt (R376): it waits for signal where it may run and its core runs, and is DISABLED
elsewhere. -/
def attemptStarted (s t : State) (n : Nat) : Prop :=
  (laneOf t n).state = (if laneMayRun s n = true ∧ coreRuns s n = true then .waitSignal else .disabled)
    ∧ (laneOf t n).signal = false ∧ (laneOf t n).cdrLock = false ∧ (laneOf t n).fecLock = false
    ∧ (laneOf t n).eye = 0

/-- Lane `n` has failed its attempt (R377, R378): it backs off, and the failure is counted. -/
def attemptFailed (s t : State) (n : Nat) : Prop :=
  (laneOf t n).state = .backoff ∧ (laneOf t n).fails = ((laneOf s n).fails + 1) % 2 ^ 32
    ∧ (laneOf t n).cdrLock = false ∧ (laneOf t n).fecLock = false
    ∧ (laneOf t n).backoffUntil = s.now + backoffPs (laneOf s n).backoffStep
    ∧ (laneOf t n).backoffStep = min 7 ((laneOf s n).backoffStep + 1)

/-- Every lane of a group is `f` of what it was, and every other lane is as it was. -/
def groupLanes (s t : State) (g : LaneGroup) (f : LaneSt → LaneSt) : Prop :=
  (∀ m ∈ g.lanes, laneOf t m = f (laneOf s m)) ∧ ∀ m, m ∉ g.lanes → laneOf t m = laneOf s m

end Sys2Proof.Claims

open Sys2Proof.Claims in
/-- R55, R361, R366, R368, R376 to R379: training, command by command: signal, training frames and the answer "at limit",
readiness, the timeouts, the backoff's end and FEC lock, each with the lane state it leads to and the lanes it leaves
alone. Where the rules leave a point open it follows log entries 54 and 145. -/
def Obligations.LaneTraining : Prop :=
  (∀ (s : State) (n : LaneId),
    let x := laneOf s n
    (x.state = .waitSignal → coreRuns s n = true → ∃ t, exec (.signalDetect n) s = .next t
      ∧ (laneCfg s n 3 3 = 0 → laneOf t n = { x with signal := true, cdrLock := true, state := .data, dataAt := s.now })
      ∧ (laneCfg s n 3 3 ≠ 0 → laneOf t n = { x with signal := true, cdrLock := true, state := .frameLock })
      ∧ otherLanesKept s t n ∧ lanesOnly s t)
    ∧ (x.state ≠ .waitSignal ∨ coreRuns s n = false → ∃ t, exec (.signalDetect n) s = .next t
      ∧ laneOf t n = { x with signal := true } ∧ otherLanesKept s t n ∧ { t with lanes := s.lanes } = s))
  ∧ (∀ (s : State) (n : LaneId) (f : TrainFrame),
    let x := laneOf s n
    let link := ((laneGroup s n).map (fun g => g.link)).getD false
    let foreign := link = true ∧ laneCfg s n 2 2 = 1 ∧ 320 < f.offset.toInt.natAbs
    let held := (match f.request with
      | some r => coefStep x.coef r.1.val r.2 == x.coef
      | none => false)
    (x.state = .frameLock ∨ x.state = .exchange ∨ x.state = .waitPartner →
      coreRuns s n = false ∨ x.timerAt + x.timeout + 625 ≤ s.now →
      ∃ t, exec (.trainingFrameReceive n f) s = .next t ∧ attemptFailed s t n ∧ otherLanesKept s t n ∧ lanesOnly s t)
    ∧ (coreRuns s n = true → s.now < x.timerAt + x.timeout + 625 →
    (x.state = .frameLock → foreign → ∃ t, exec (.trainingFrameReceive n f) s = .next t ∧ attemptFailed s t n
      ∧ otherLanesKept s t n ∧ lanesOnly s t)
    ∧ ((x.state = .frameLock ∧ ¬ foreign) ∨ x.state = .exchange → ∃ t, exec (.trainingFrameReceive n f) s = .next t
      ∧ (laneOf t n).state = .exchange ∧ (laneOf t n).timerAt = s.now
      ∧ (laneOf t n).partnerReady = (x.partnerReady || f.ready)
      ∧ (laneOf t n).coef = (match f.request with
        | some r => coefStep x.coef r.1.val r.2
        | none => x.coef)
      ∧ t.out = (if held then s.out ++ [.training n 2] else s.out)
      ∧ otherLanesKept s t n ∧ lanesOnly s { t with out := s.out })
    ∧ (x.state = .waitPartner → ∃ t, exec (.trainingFrameReceive n f) s = .next t
      ∧ (laneOf t n).state = (if x.partnerReady = true ∨ f.ready = true then .data else .waitPartner)
      ∧ t.out = (if held then s.out ++ [.training n 2] else s.out)
      ∧ otherLanesKept s t n ∧ lanesOnly s { t with out := s.out })))
  ∧ (∀ (s : State) (n : LaneId),
    let x := laneOf s n
    coreRuns s n = true →
    (x.state = .exchange → rwField s (.lane n.val) 4 15 0 ≤ x.eye → ∃ t, exec (.receiverReady n) s = .next t
      ∧ (laneOf t n).state = (if x.partnerReady then .data else .waitPartner)
      ∧ t.out = s.out ++ [.training n 1] ∧ otherLanesKept s t n ∧ lanesOnly s { t with out := s.out })
    ∧ (training x = true → x.timerAt + x.timeout ≤ s.now → arrivalsWait s = false → ∃ t, exec (.trainingTimeout n) s = .next t
      ∧ attemptFailed s t n ∧ otherLanesKept s t n ∧ lanesOnly s t)
    ∧ (training x = true → x.attemptAt + 4 * x.timeout ≤ s.now → arrivalsWait s = false →
      ∃ t, exec (.attemptLimitExpiry n) s = .next t
      ∧ attemptFailed s t n ∧ otherLanesKept s t n ∧ lanesOnly s t)
    ∧ (x.state = .backoff → x.backoffUntil ≤ s.now → ∃ t, exec (.backoffEnd n) s = .next t
      ∧ attemptStarted s t n ∧ (laneOf t n).attemptAt = s.now ∧ otherLanesKept s t n ∧ lanesOnly s t))
  ∧ (∀ (s : State) (n : LaneId) (g : LaneGroup), groupAt s n = some g →
    (allIn s g .data = true → ∃ t, exec (.fecLock n) s = .next t
      ∧ (∀ m ∈ g.lanes, (laneOf t m).state = .up ∧ (laneOf t m).fecLock = true ∧ (laneOf t m).known = (laneOf s m).coef
          ∧ (laneOf t m).backoffStep = 0)
      ∧ (∀ m, m ∉ g.lanes → laneOf t m = laneOf s m)
      ∧ (g.link = true → (linkOfNo t n).up = true ∧ (linkOfNo t n).live = false ∧ t.macs = s.macs)
      ∧ (g.link = false → (macOf t n).up = true ∧ t.fabric = s.fabric) ∧ t.engines = s.engines)
    ∧ (allIn s g .data = true → lastDataAt s g + 10 * 10 ^ 9 ≤ s.now → arrivalsWait s = false → ∀ skew,
      ∃ t, exec (.fecLockWaitExpiry n skew) s = .next t ∧ (∀ m ∈ g.lanes, attemptFailed s t m)
      ∧ (∀ m, m ∉ g.lanes → laneOf t m = laneOf s m) ∧ lanesOnly s t))

open Sys2Proof.Claims in
/-- R330, R369 to R372, R380, R381, R386, R389: what takes a lane out of service, and what runs while it is in
service: the loss of FEC lock and of signal, the loss and lock of a tile's PLL, a test, an adaptation update, an
eye figure and a write of its alarm. Which way a tap moves is a free value. Where the rules leave a point open it follows log entries 54, 55
and 56. -/
def Obligations.LaneService : Prop :=
  (∀ (s : State) (n : LaneId) (g : LaneGroup), groupAt s n = some g → allIn s g .up = true →
    ∃ t, exec (.fecLockLoss n) s = .next t ∧ (∀ m ∈ g.lanes, (laneOf t m).state = .data ∧ (laneOf t m).fecLock = false)
    ∧ (∀ m, m ∉ g.lanes → laneOf t m = laneOf s m)
    ∧ (g.link = true → (linkOfNo t n).up = false) ∧ (g.link = false → (macOf t n).up = false)
    ∧ t.engines = s.engines)
  ∧ (∀ (s : State) (n : LaneId),
    let x := laneOf s n
    ((x.state = .frameLock ∨ x.state = .exchange ∨ x.state = .waitPartner) → ∃ t, exec (.laneLossOfSignal n) s = .next t
      ∧ attemptFailed s t n ∧ (laneOf t n).signal = false ∧ otherLanesKept s t n ∧ lanesOnly s t)
    ∧ ((x.state = .up ∨ x.state = .data) → ∃ t, exec (.laneLossOfSignal n) s = .next t ∧ attemptStarted s t n
      ∧ (laneOf t n).losses = (x.losses + 1) % 2 ^ 32 ∧ t.engines = s.engines
      ∧ (x.state = .data → otherLanesKept s t n ∧ lanesOnly s t))
    ∧ (x.state = .waitSignal ∨ x.state = .disabled ∨ x.state = .backoff ∨ x.state = .test →
      ∃ t, exec (.laneLossOfSignal n) s = .next t ∧ (laneOf t n).state = x.state ∧ (laneOf t n).signal = false
      ∧ otherLanesKept s t n ∧ lanesOnly s t))
  ∧ (∀ (s : State) (k : Fin 8), s.tilePll.testBit k = true → ∃ t, exec (.tilePllLoss k) s = .next t
    ∧ t.tilePll.testBit k = false ∧ (∀ j, j ≠ k.val → t.tilePll.testBit j = s.tilePll.testBit j)
    ∧ (∀ m, m / 64 = k.val → (laneOf t m).state = .disabled ∧ (laneOf t m).fecLock = false
        ∧ (laneOf t m).signal = false ∧ (laneOf t m).cdrLock = false)
    ∧ t.engines = s.engines)
  ∧ (∀ (s : State) (k : Fin 8), s.tilePll.testBit k = false → domainOn s (22 + k.val) = true →
    ∃ t, exec (.tilePllLock k) s = .next t ∧ t.tilePll = s.tilePll + 2 ^ k.val
    ∧ (∀ m, m / 64 = k.val → (laneOf s m).state = .disabled → laneMayRun { s with tilePll := s.tilePll + 2 ^ k.val } m = true →
        (laneOf t m).state = (if coreRuns s m then .waitSignal else .disabled))
    ∧ (∀ m, m / 64 ≠ k.val ∨ (laneOf s m).state ≠ .disabled → laneOf t m = laneOf s m)
    ∧ lanesOnly s { t with tilePll := s.tilePll })
  ∧ (∀ (s : State) (n : LaneId) (val : BitVec 32) (src : Source), accepts s src (.lane n.val) 8 0 val.toNat →
    (val.toNat % 64 ≠ 0 → (laneOf s n).state ≠ .test → (laneOf s n).state ≠ .up →
      ∃ t, exec (.laneTestWrite n val src) s = .next t
      ∧ (laneOf t n).state = .test ∧ (laneOf t n).fecLock = false ∧ otherLanesKept s t n
      ∧ otherRegsKept s t (.lane n.val) 8 ∧ lanesOnly s { t with regs := s.regs, perf := s.perf })
    ∧ (val.toNat % 64 ≠ 0 → ∃ t, exec (.laneTestWrite n val src) s = .next t ∧ (laneOf t n).state = .test
      ∧ rwBits t (.lane n.val) 8 = val.toNat % 64 ∧ otherRegsKept s t (.lane n.val) 8)
    ∧ (val.toNat % 64 = 0 → (laneOf s n).state = .test → ∃ t, exec (.laneTestWrite n val src) s = .next t
      ∧ attemptStarted s t n ∧ otherLanesKept s t n
      ∧ otherRegsKept s t (.lane n.val) 8 ∧ lanesOnly s { t with regs := s.regs, perf := s.perf }))
  ∧ (∀ (s : State) (n : LaneId), (∀ i, (mget 0 (laneOf s n).taps i).natAbs ≤ 256) →
    (rwField s (.lane n.val) 0 25 25 ≠ 0 ∨ coreRuns s n = false → exec (.adaptationUpdate n) s = .next s)
    ∧ ((laneOf s n).state = .exchange ∨ (laneOf s n).state = .data ∨ (laneOf s n).state = .up →
    rwField s (.lane n.val) 0 25 25 = 0 → coreRuns s n = true → ∃ t, exec (.adaptationUpdate n) s = .next t
    ∧ (∀ i, (mget 0 (laneOf t n).taps i).natAbs ≤ 256)
    ∧ ((laneOf s n).state ≠ .exchange → ∀ i, (mget 0 (laneOf t n).taps i - mget 0 (laneOf s n).taps i).natAbs ≤ 1)
    ∧ (∀ i, 30 ≤ i → mget 0 (laneOf t n).taps i = mget 0 (laneOf s n).taps i)
    ∧ { laneOf t n with taps := (laneOf s n).taps, loopGain := (laneOf s n).loopGain } = laneOf s n
    ∧ otherLanesKept s t n ∧ { t with lanes := s.lanes, freeCtr := s.freeCtr } = s))
  ∧ (∀ (s : State) (n : LaneId) (eye : BitVec 16),
    let x := laneOf s n
    let low := decide (eye.toNat < rwField s (.lane n.val) 4 15 0)
    (x.state = .exchange ∨ x.state = .waitPartner ∨ x.state = .data ∨ x.state = .up) →
    ∃ t, exec (.eyeUpdate n eye) s = .next t ∧ (laneOf t n).eye = eye.toNat ∧ (laneOf t n).eyeLow = low
    ∧ (s.now, eye.toNat) ∈ (laneOf t n).eyes
    ∧ { laneOf t n with eye := x.eye, eyes := x.eyes, eyeLow := x.eyeLow, lowAt := x.lowAt } = x
    ∧ otherLanesKept s t n
    ∧ (low = true → x.eyeLow = false → x.lowAt = 0 ∨ x.lowAt - 1 + 10 ^ 12 ≤ s.now → eventRaised s t)
    ∧ (low = false → t.ledger = s.ledger) ∧ { t with lanes := s.lanes, ledger := s.ledger } = s)
  ∧ (∀ (s : State) (n : LaneId) (val : BitVec 32) (src : Source), accepts s src (.lane n.val) 4 0 val.toNat →
    ∃ t, exec (.registerWrite src (BitVec.ofNat 32 (regAddr (.lane n.val) 4)) val) s = .next t
    ∧ rwField t (.lane n.val) 4 15 0 = val.toNat % 2 ^ 16
    ∧ (laneOf t n).eyeLow = (measuresEye (laneOf s n) && decide ((laneOf s n).eye < val.toNat % 2 ^ 16))
    ∧ otherLanesKept s t n ∧ otherRegsKept s t (.lane n.val) 4
    ∧ lanesOnly s { t with regs := s.regs, perf := s.perf })

open Sys2Proof.Claims in
/-- R382 to R385, R401: the transmit direction of a lane group rests, refreshes and wakes with its signals; the receive
direction follows the partner's markers, and loses its signal where no refresh or no clock comes. Where the rules leave a
point open it follows log entry 145. -/
def Obligations.LaneRest : Prop :=
  ∀ (s : State) (n : LaneId) (g : LaneGroup), groupAt s n = some g →
    let x := laneOf s n
    (allIn s g .up = true → x.txRest = false → laneCfg s n 7 7 = 1 → x.wakeTx ≠ 0 → restFormat s n = true →
      gatesAllowRest s g = true → restIdle s g = true → arrivalsWait s = false → ∃ t, exec (.restIdleExpiry n) s = .next t
      ∧ groupLanes s t g (fun y => { y with txRest := true, refreshSent := s.now })
      ∧ t.out = s.out ++ [.restSignal n 0] ∧ { t with lanes := s.lanes, out := s.out } = s)
    ∧ (x.txRest = true → x.refreshSent + 100 * 10 ^ 6 ≤ s.now → ∃ t, exec (.restRefresh n) s = .next t
      ∧ groupLanes s t g (fun y => { y with refreshSent := s.now })
      ∧ t.out = s.out ++ [.restSignal n 1] ∧ { t with lanes := s.lanes, out := s.out } = s)
    ∧ (x.txRest = true → laneCfg s n 7 7 = 0 ∨ (g.link = true ∧ (linkOfNo s n).waiting ≠ [])
        ∨ (g.link = false ∧ nothingToSend s n = false) → ∃ t, exec (.restWake n) s = .next t
      ∧ groupLanes s t g (fun y => { y with txRest := false, wakeUntil := s.now + x.wakeTx * 10 ^ 6 })
      ∧ t.out = s.out ++ [.restSignal n 2] ∧ { t with lanes := s.lanes, out := s.out } = s)
    ∧ (allIn s g .up = true → x.wakeRx ≠ 0 → ∃ t, exec (.restMarkerReceive n false) s = .next t
      ∧ groupLanes s t g (fun y => { y with rxRest := true, refreshSeen := s.now }) ∧ { t with lanes := s.lanes } = s)
    ∧ (allIn s g .up = true → x.rxRest = true → ∃ t, exec (.restMarkerReceive n true) s = .next t
      ∧ groupLanes s t g (fun y => { y with refreshSeen := s.now }) ∧ { t with lanes := s.lanes } = s)
    ∧ (allIn s g .up = true → x.rxRest = true → x.refreshSeen + 250 * 10 ^ 6 ≤ s.now → arrivalsWait s = false →
      ∃ t, exec (.refreshTimeout n) s = .next t
      ∧ (∀ m ∈ g.lanes, attemptStarted s t m ∧ (laneOf t m).losses = ((laneOf s m).losses + 1) % 2 ^ 32)
      ∧ (g.link = true → (linkOfNo t n).up = false) ∧ (g.link = false → (macOf t n).up = false) ∧ t.engines = s.engines)
    ∧ (x.rxRest = true → ∃ t, exec (.wakeEnd n true) s = .next t ∧ groupLanes s t g (fun y => { y with rxRest := false })
      ∧ (g.link = true → (linkOfNo t n).heardAt = s.now) ∧ { t with lanes := s.lanes, fabric := s.fabric } = s)
    ∧ (allIn s g .up = true → x.rxRest = true → ∃ t, exec (.wakeEnd n false) s = .next t
      ∧ (∀ m ∈ g.lanes, attemptStarted s t m ∧ (laneOf t m).losses = ((laneOf s m).losses + 1) % 2 ^ 32)
      ∧ (g.link = true → (linkOfNo t n).up = false) ∧ (g.link = false → (macOf t n).up = false) ∧ t.engines = s.engines)

/-! ## Faults, repairs and the Triad -/

/-- R431, R433, R435: a repair raises one event; a value without a shadow restarts; an entry whose copies fail as well
is named as lost and is no longer valid; a full repair queue only raises its event. What is repaired or lost fails parity
no longer. The Vat holds a failed bitmap word
out of allocation until it is rebuilt, and the buffer of a failed record out of its pool. R432: a configuration
register whose stored bits have flipped is in the condition, and CFG_PARITY is raised; a check that finds no flip
changes nothing. Where the rules leave a point open it follows log entries 51, 79 and 83. -/
def Obligations.RepairsAndParity : Prop :=
  ((∀ (s : State) (h : BitVec 64),
     let type := hType h.toNat
     let inst := hInst h.toNat
     let idx := hIndex h.toNat
     let cleared := fun (t : State) => ∀ k, k ∈ t.badEntries ↔ k ∈ s.badEntries ∧ k ≠ tblKey type inst idx
     (repairable type inst idx = true →
       (type ≠ 0x09 → type ≠ 0x43 → type ≠ 0x44 → ∃ t, exec (.tableRepair h .repaired) s = .next t ∧ cleared t
         ∧ eventRaised s t ∧ { t with ledger := s.ledger, badEntries := s.badEntries } = s)
       ∧ (type = 0x09 → ∃ t, exec (.tableRepair h .repaired) s = .next t ∧ cleared t
         ∧ (∀ d, mget d t.sched.policers idx = d) ∧ (∀ d k, k ≠ idx → mget d t.sched.policers k = mget d s.sched.policers k)
         ∧ eventRaised s t ∧ { t.sched with policers := s.sched.policers } = s.sched
         ∧ { t with sched := s.sched, ledger := s.ledger, badEntries := s.badEntries } = s)
       ∧ (type = 0x43 → ∃ t, exec (.tableRepair h .repaired) s = .next t ∧ cleared t
         ∧ (qst t idx).tokens = 0 ∧ (qst t idx).deficit = 0
         ∧ { qst t idx with
             tokens := (qst s idx).tokens, tokensAt := (qst s idx).tokensAt, deficit := (qst s idx).deficit } = qst s idx
         ∧ (∀ q, q ≠ idx → qst t q = qst s q) ∧ eventRaised s t
         ∧ { t with qm := s.qm, sched := s.sched, ledger := s.ledger, badEntries := s.badEntries } = s)
       ∧ (type = 0x44 → ∃ t, exec (.tableRepair h .repaired) s = .next t ∧ cleared t
         ∧ (let b := bundleRun t (16 * inst + idx / 4096) (idx % 4096)
           b.tokens = 0 ∧ b.done = (portRun s (16 * inst + idx / 4096)).vtime)
         ∧ eventRaised s t ∧ { t with sched := s.sched, ledger := s.ledger, badEntries := s.badEntries } = s)
       ∧ (∃ t, exec (.tableRepair h .lost) s = .next t ∧ cleared t
         ∧ (∀ k, k ∈ t.lostEntries ↔ k ∈ s.lostEntries ∨ k = tblKey type inst idx) ∧ eventRaised s t
         ∧ (let u := { t with ledger := s.ledger, lostEntries := s.lostEntries, badEntries := s.badEntries }
           (type = 1 → mhas t.l2.entries idx = false ∧ { u with l2 := s.l2 } = s)
           ∧ (type = 2 → (∀ p ∈ rowNumbers s (idx / 40960), p.1 = idx % 40960 ∨ p.2 ∈ sliceRoutes t (idx / 40960)
                 ∨ (p.1 + 1 = idx % 40960 ∧ rowsOf p.2.v6 p.2.length = 2))
               ∧ (∀ r ∈ sliceRoutes t (idx / 40960), r ∈ sliceRoutes s (idx / 40960))
               ∧ (∀ n, n ≠ idx / 40960 → sliceRoutes t n = sliceRoutes s n) ∧ { u with routes := s.routes } = s)
           ∧ (type = 6 → mhas t.tree.nodes idx = false ∧ { u with tree := s.tree } = s)
           ∧ (type ≠ 1 → type ≠ 2 → type ≠ 6 → type < 0x40 → tblGet t t.epoch.live type inst idx = 0
               ∧ { u with bank0 := s.bank0, bank1 := s.bank1 } = s)
           ∧ (0x40 ≤ type → u = s)))
       ∧ (∀ n, (1 ≤ type → type ≤ 5 → ∃ t, exec (.tableRepair h (.overflow n)) s = .next t
           ∧ eventRaised s t ∧ { t with ledger := s.ledger } = s)
         ∧ (type = 0 ∨ 5 < type → exec (.tableRepair h (.overflow n)) s = .next s)))
     ∧ (repairable type inst idx = false → ∀ o, exec (.tableRepair h o) s = .next s))
   ∧ (∀ (s : State) (p : Fin 8) (i : Nat),
     ((p.val, i) ∉ s.vat.rebuilding → exec (.vatWordRebuild p i .wordFails) s
       = .next { s with vat := { s.vat with rebuilding := s.vat.rebuilding ++ [(p.val, i)] } })
     ∧ ((p.val, i) ∈ s.vat.rebuilding → ∃ t, exec (.vatWordRebuild p i .wordRebuilt) s = .next t
       ∧ (∀ w, w ∈ t.vat.rebuilding ↔ w ∈ s.vat.rebuilding ∧ w ≠ (p.val, i)) ∧ eventRaised s t
       ∧ { t.vat with rebuilding := s.vat.rebuilding } = s.vat ∧ { t with vat := s.vat, ledger := s.ledger } = s)
     ∧ (inStorage s p i = true → handle p i ∉ s.vat.badRecords → ∃ t, exec (.vatWordRebuild p i .recordFails) s = .next t
       ∧ t.vat.badRecords = s.vat.badRecords ++ [handle p i] ∧ mhas t.vat.held (handle p i) = true ∧ eventRaised s t
       ∧ { t.vat with badRecords := s.vat.badRecords, held := s.vat.held } = s.vat
       ∧ { t with vat := s.vat, ledger := s.ledger } = s)))
  ∧ (∀ (s : State) (addr flips : BitVec 32) (b : Block) (r : Nat), regAt addr.toNat = some (b, r) → addr.toNat % 16 = 0 →
       domainOn s (addrDomain addr.toNat) = true → flipsOf s b r = 0 →
       let kept := (specOf b r).rw ||| (specOf b r).rwl
       (flips.toNat &&& kept ≠ 0 → ∃ t, exec (.cfgParityCheck addr flips) s = .next t
         ∧ t.regs = { s.regs with parity := s.regs.parity ++ [(addr.toNat, flips.toNat &&& kept)] } ∧ eventRaised s t
         ∧ (b ≠ .time → timeParity s = false → t.time = s.time)
         ∧ { t with regs := s.regs, ledger := s.ledger, time := s.time } = s)
       ∧ (flips.toNat &&& kept = 0 → exec (.cfgParityCheck addr flips) s = .next s))

/-- R271, R434 to R436: the Scraper recovers the party declared first: its locks and pins are gone, no record names it
as an owner, and of a queue what it held is gone from the Scraper's list; when the walk ends the party may claim again and SCRAPER_DONE is raised. A pipe whose step does not end is faulted and declared; its
reset restarts what R431 names and reloads its entries, and it is restored in the live epoch unless it is held down. Where
the rules leave a point open it follows log entries 26, 81 and 172. -/
def Obligations.ScraperAndPipes : Prop :=
  (∀ (s : State) (o : Nat) (fw : Bool) (ps : List (Nat × Bool)), s.scraper.current = none →
    s.scraper.pending = (o, fw) :: ps → ∃ t, exec .scraperRecovery s = .next t
    ∧ t.scraper.current = some o ∧ t.scraper.pending = ps ∧ t.scraper.walked = true
    ∧ (ownerKind o ≠ 3 ∨ fw = true → (∀ l ∈ t.qm.locks ++ t.qm.pins, l.2 ∉ partyNames o)
        ∧ (scraperName ∉ partyNames o → ∀ p ∈ t.vat.held, p.2.owner ∉ partyNames o))
    ∧ (ownerKind o = 3 → mhas t.scraper.taken (o % 2 ^ 28) = false)
    ∧ (ownerKind o ≠ 3 → t.ledger = s.ledger) ∧ t.engines = s.engines ∧ t.regs = s.regs)
  ∧ (∀ (s : State) (o : Nat), s.scraper.current = some o → s.scraper.walked = true → ∃ t, exec .scraperDone s = .next t
    ∧ t.scraper = { s.scraper with
        current := none
        swept := 0
        walked := false
        returned := (s.scraper.returned + s.scraper.swept) % 2 ^ 32 }
    ∧ (∀ n, n ∈ t.vat.declared ↔ n ∈ s.vat.declared ∧ n ∉ partyNames o) ∧ eventRaised s t
    ∧ { t.vat with declared := s.vat.declared } = s.vat
    ∧ { t with scraper := s.scraper, vat := s.vat, ledger := s.ledger } = s)
  ∧ (∀ (s : State) (p : PipeId),
    (domainOn s (4 + p.val / 8) = true → (pipeOf s p).faulted = false → ∃ t, exec (.pipeStepTimeout p) s = .next t
      ∧ (pipeOf t p).faulted = true ∧ (pipeOf t p).fifo = [] ∧ (pipeOf t p).egress = []
      ∧ (pipeOf t p).declaredAt = some s.now
      ∧ ((pipeOf t p).heldDown = true ↔ ∃ d, (pipeOf s p).declaredAt = some d ∧ s.now < d + 10 ^ 12)
      ∧ t.scraper.pending = s.scraper.pending ++ [(ownerName 1 p, false)]
      ∧ (∀ q, q ≠ p.val → pipeOf t q = pipeOf s q) ∧ t.engines = s.engines ∧ t.regs = s.regs)
    ∧ (domainOn s (4 + p.val / 8) = false ∨ (pipeOf s p).faulted = true → exec (.pipeStepTimeout p) s = .next s)
    ∧ ((pipeOf s p).faulted = true → (pipeOf s p).resetDone = false → ∃ t, exec (.pipeResetComplete p) s = .next t
      ∧ (∀ k, k ∈ t.badEntries ↔ k ∈ s.badEntries ∧ pipeEntry p k = false)
      ∧ pipeOf t p = { pipeOf s p with resetDone := true } ∧ (∀ q, q ≠ p.val → pipeOf t q = pipeOf s q)
      ∧ (∀ r ∈ t.sched.policers, r.1 / 8192 ≠ p.val)
      ∧ (∀ q ∈ pipeQueues s s.epoch.live p, (qst t q).tokens = 0 ∧ (qst t q).deficit = 0)
      ∧ { t with pipes := s.pipes, sched := s.sched, qm := s.qm, badEntries := s.badEntries } = s)
    ∧ ((pipeOf s p).faulted = true → (pipeOf s p).resetDone = true → (pipeOf s p).heldDown = false →
      ∃ t, exec (.pipeRestored p) s = .next t
      ∧ pipeOf t p = { pipeOf s p with faulted := false, resetDone := false } ∧ (∀ q, q ≠ p.val → pipeOf t q = pipeOf s q)
      ∧ pipeEp t p = s.epoch.live ∧ eventRaised s t
      ∧ { t with pipes := s.pipes, epoch := s.epoch, ledger := s.ledger } = s)
    ∧ ((pipeOf s p).heldDown = true → exec (.pipeRestored p) s = .next s))

/-- R439, R440, R277: the isolated channel returns to the vote when its resync ends; the SRAM pass ends, or halts the
Triad on a line on which all three copies differ; headless operation that lasts headless_limit stops every port and
link; a Cave channel that fails takes no claims and loses its queue-state copies, and one that trains is ready. Where
the rules leave a point open it follows log entries 85, 86 and 88. -/
def Obligations.TriadAndCave : Prop :=
  (∀ (s : State) (c at0 : Nat), s.triad.mode = .resync → s.triad.resyncing = some (c, at0) →
    ∃ t, exec .resyncComplete s = .next t
    ∧ t.triad = { s.triad with
        mode := .triplex
        inVote := s.triad.inVote + 2 ^ c
        resyncing := none
        sramPass := true }
    ∧ eventRaised s t ∧ { t with triad := s.triad, ledger := s.ledger } = s)
  ∧ (∀ (s : State), s.triad.sramPass = true →
    (exec (.sramPassComplete false) s = .next { s with triad := { s.triad with sramPass := false, coreParity := [] } })
    ∧ (s.triad.mode ≠ .halted → ∃ t, exec (.sramPassComplete true) s = .next t ∧ t.triad.mode = .halted
      ∧ t.triad.sramPass = false ∧ t.triad.coreParity = [] ∧ t.triad.haltedAt = s.now ∧ (engine t eTriad).run = .halted
      ∧ (∀ e, e ≠ eTriad → engine t e = engine s e)
      ∧ (s.ledger.fifo.length < 64 → ∃ ev ∈ t.ledger.fifo, ev.code = Ev.triadHalt ∧ ev.payload = 4 + s.triad.inVote * 8)
      ∧ { t with triad := s.triad, engines := s.engines, ledger := s.ledger, upd := s.upd, flash := s.flash } = s))
  ∧ (∀ (s : State), s.triad.mode = .halted → s.triad.headlessStopped = false →
    s.triad.haltedAt + rwField s .triad 1 16 0 * 10 ^ 12 ≤ s.now → ∃ t, exec .headlessLimitExpiry s = .next t
    ∧ t.triad.headlessStopped = true ∧ (∀ n < 512, n ∈ t.triad.stopped) ∧ eventRaised s t
    ∧ { t.triad with headlessStopped := s.triad.headlessStopped, stopped := s.triad.stopped } = s.triad
    ∧ { t with triad := s.triad, ledger := s.ledger } = s)
  ∧ (∀ (s : State) (c : Fin 8),
    ((chan s c).ready = true → ∃ t, exec (.caveChannelFail c) s = .next t
      ∧ chan t c = { chan s c with ready := false, failed := true } ∧ (∀ d, d ≠ c.val → chan t d = chan s d)
      ∧ (∀ k < 16, ∀ j < 2, copyBuffer s k j / 768 = c.val → (k, j) ∈ t.qm.copyLost)
      ∧ (∀ x ∈ s.qm.copyLost, x ∈ t.qm.copyLost) ∧ { t.qm with copyLost := s.qm.copyLost } = s.qm
      ∧ eventRaised s t ∧ t.cave.mem = s.cave.mem ∧ { t with cave := s.cave, qm := s.qm, ledger := s.ledger } = s)
    ∧ (domainOn s (14 + c.val) = true → (chan s c).ready = false → ∃ t, exec (.caveChannelReady c) s = .next t
      ∧ chan t c = { chan s c with ready := true, failed := false } ∧ (∀ d, d ≠ c.val → chan t d = chan s d)
      ∧ { t.cave with chan := s.cave.chan } = s.cave ∧ { t with cave := s.cave } = s)
    ∧ ((chan s c).ready = false → exec (.caveChannelFail c) s = .next s))

/-- R442: in each management clock the oldest waiting event whose clock has passed goes to the ring at head, with the
head as its sequence number, and head advances. The entry after a loss reports the losses. Where the rules leave a
point open it follows log entry 29. -/
def Obligations.LedgerRing : Prop :=
  ∀ (s : State) (e : Event) (es : List Event), s.ledger.fifo = e :: es → e.clock + 1 ≤ s.now / 2500 →
    s.ledger.written ≤ s.now / 2500 → s.ledger.fifo.length ≤ 64 → ∃ t, exec .ledgerWrite s = .next t
    ∧ mget {} t.ledger.ring (s.ledger.head % 4096) = { e with seq := s.ledger.head }
    ∧ (∀ d k, k ≠ s.ledger.head % 4096 → mget d t.ledger.ring k = mget d s.ledger.ring k)
    ∧ t.ledger.head = (s.ledger.head + 1) % 2 ^ 32 ∧ t.ledger.written = s.now / 2500 + 1
    ∧ t.ledger.dropped = s.ledger.dropped ∧ t.ledger.overrun = 0
    ∧ (s.ledger.overrun = 0 → t.ledger.fifo = es)
    ∧ (s.ledger.overrun ≠ 0 → ∃ ev ∈ t.ledger.fifo, ev.code = Ev.ledgerOverrun ∧ ev.payload = min s.ledger.overrun (2 ^ 32 - 1))
    ∧ { t with ledger := s.ledger, perf := s.perf } = s

/-! ## The I3C target -/

namespace Sys2Proof.Claims

/-- A register message as R454 lays it out, in SDR: WRITE or READ_SETUP with n from 1 to 16 and its whole length. -/
def goodMessage (bytes : List Byte) : Prop :=
  ∃ a : Nat, (∃ ws : List (BitVec 32), 1 ≤ ws.length ∧ ws.length ≤ 16
      ∧ bytes = 1 :: leBytes 4 a ++ ws.flatMap (fun w => leBytes 4 w.toNat))
    ∨ ∃ n : BitVec 8, 1 ≤ n.toNat ∧ n.toNat ≤ 16 ∧ bytes = 2 :: leBytes 4 a ++ [n]

/-- The target takes a message of its own address in SDR (R450, R452). -/
def i3cTakes (s : State) : Prop :=
  s.boot.vaon = true ∧ s.i3c.addr.isSome = true ∧ s.i3c.ignoring = false ∧ s.i3c.inHdr = false

end Sys2Proof.Claims

open Sys2Proof.Claims in
/-- R454, R455: a WRITE writes its registers in order; a READ_SETUP waits for its READ and replaces one that waits;
any other message, one too long or one with a parity error is discarded whole and counted, and the next READ returns
BAD_MESSAGE. A READ answers NO_SETUP, BUSY before 2 µs have passed, BAD_MESSAGE beyond the read length, or OK and the
values. The two rows take the same message. Where the rules leave a point open it follows log entry 109. -/
def Obligations.I3cMessages : Prop :=
  (∀ (s : State) (a : BitVec 32) (ws : List (BitVec 32)), i3cTakes s → 1 ≤ ws.length → ws.length ≤ 16 →
    5 + 4 * ws.length ≤ s.i3c.mwl →
    exec (.i3cWrite (1 :: leBytes 4 a.toNat ++ ws.flatMap (fun w => leBytes 4 w.toNat)) true) s
      = .next ((List.range ws.length).foldl
          (fun u k => ctlWrite .i3c ((a.toNat + 16 * k) % 2 ^ 32) (ws.getD k 0).toNat u) s))
  ∧ (∀ (s : State) (a : BitVec 32) (n : BitVec 8), i3cTakes s → 1 ≤ n.toNat → n.toNat ≤ 16 → 6 ≤ s.i3c.mwl →
    exec (.i3cReadSetup (2 :: leBytes 4 a.toNat ++ [n]) true) s
      = .next { s with i3c := { s.i3c with setup := some { addr := a.toNat, n := n.toNat, endedAt := s.now } } })
  ∧ (∀ (s : State) (bytes : List Byte) (ok : Bool), i3cTakes s →
    ok = false ∨ s.i3c.mwl < bytes.length ∨ ¬ goodMessage bytes →
    let t := { s with i3c := { s.i3c with errors := (s.i3c.errors + 1) % 2 ^ 32, bad := true } }
    exec (.i3cWrite bytes ok) s = .next t ∧ exec (.i3cReadSetup bytes ok) s = .next t)
  ∧ (∀ (s : State) (code : BitVec 8), i3cTakes s →
    (s.i3c.bad = true → exec (.i3cRead code) s
      = .next { s with i3c := { s.i3c with bad := false, setup := none }, out := s.out ++ [.i3c [3]] })
    ∧ (s.i3c.bad = false → s.i3c.setup = none → exec (.i3cRead code) s = .next { s with out := s.out ++ [.i3c [2]] })
    ∧ (∀ r, s.i3c.bad = false → s.i3c.setup = some r →
      (s.i3c.mrl < 1 + 4 * r.n → exec (.i3cRead code) s = .next { s with
        i3c := { s.i3c with setup := none, errors := (s.i3c.errors + 1) % 2 ^ 32 }, out := s.out ++ [.i3c [3]] })
      ∧ (1 + 4 * r.n ≤ s.i3c.mrl → s.now < r.endedAt + 2 * 10 ^ 6 →
        exec (.i3cRead code) s = .next { s with out := s.out ++ [.i3c [1]] })
      ∧ (1 + 4 * r.n ≤ s.i3c.mrl → r.endedAt + 2 * 10 ^ 6 ≤ s.now → ∃ t bytes, exec (.i3cRead code) s = .next t
        ∧ t.out = s.out ++ [.i3c (0 :: bytes)] ∧ bytes.length = 4 * r.n ∧ t.i3c = { s.i3c with setup := none }
        ∧ (1 ≤ r.n → bytes.take 4 = leBytes 4 (ctlRead .i3c (r.addr % 2 ^ 32) { s with i3c := { s.i3c with setup := none } }).1)
        ∧ t.engines = s.engines ∧ t.vat = s.vat)))
  ∧ (∀ (s : State) (bytes : List Byte) (ok : Bool) (code : BitVec 8), s.i3c.addr = none →
    exec (.i3cWrite bytes ok) s = .next s ∧ exec (.i3cReadSetup bytes ok) s = .next s ∧ exec (.i3cRead code) s = .next s)

open Sys2Proof.Claims in
/-- R450 to R453: what each CCC sets and what it answers. The bytes of GETSTATUS, GETMXDS and GETCAPS are free values,
and their number is the model's. R453, R456: a unit without an address asks to join every 10 ms while Hot-Join is
enabled; a due source asks for an in-band interrupt, the lowest MDB first, and sends its payload when the controller
accepts. Where the rules leave a point open it follows log entries 110 and 111. -/
def Obligations.I3cBus : Prop :=
  ((∀ (s : State) (a : BitVec 7), s.boot.vaon = true → s.i3c.inHdr = false →
     (s.i3c.addr = none → exec (.entdaa true a) s = .next { s with i3c := { s.i3c with addr := some a.toNat } })
     ∧ (s.i3c.addr ≠ none → exec (.entdaa true a) s = .next s) ∧ exec (.entdaa false a) s = .next s
     ∧ exec .rstdaa s = .next { s with i3c := { s.i3c with addr := none } }
     ∧ (∀ n, exec (.setmwl n) s = .next { s with i3c := { s.i3c with mwl := n.toNat } })
     ∧ (∀ n ibi, exec (.setmrl n ibi) s = .next { s with i3c := { s.i3c with mrl := n.toNat, ibiLen := ibi.toNat } })
     ∧ (∀ b : BitVec 8, exec (.enec b) s = .next { s with i3c := { s.i3c with
         ibiEnabled := s.i3c.ibiEnabled || b.getLsbD 0, hjEnabled := s.i3c.hjEnabled || b.getLsbD 3 } })
     ∧ (∀ b : BitVec 8, exec (.disec b) s = .next { s with i3c := { s.i3c with
         ibiEnabled := s.i3c.ibiEnabled && !b.getLsbD 0, hjEnabled := s.i3c.hjEnabled && !b.getLsbD 3 } })
     ∧ exec .enthdr0 s = .next { s with i3c := { s.i3c with inHdr := true } }
     ∧ exec .enthdrUnsupported s = .next { s with i3c := { s.i3c with inHdr := true, ignoring := true } })
   ∧ (∀ (s : State), s.boot.vaon = true →
     exec .hdrExitPattern s = .next { s with i3c := { s.i3c with inHdr := false, ignoring := false } })
   ∧ (∀ (s : State), i3cTakes s →
     (∀ a : BitVec 7, exec (.setnewda a) s = .next { s with i3c := { s.i3c with addr := some a.toNat } })
     ∧ (∃ x : BitVec 32, exec .getpid s
         = .next { s with out := s.out ++ [.i3c (beBytes 6 (0x50A9 * 2 ^ 32 + x.toNat))] })
     ∧ exec .getbcr s = .next { s with out := s.out ++ [.i3c [0x2E]] }
     ∧ exec .getdcr s = .next { s with out := s.out ++ [.i3c [0]] }
     ∧ exec .getmwl s = .next { s with out := s.out ++ [.i3c (beBytes 2 s.i3c.mwl)] }
     ∧ exec .getmrl s = .next { s with out := s.out ++ [.i3c (beBytes 2 s.i3c.mrl ++ beBytes 1 s.i3c.ibiLen)] }
     ∧ (∀ c ∈ [(Instr.getstatus, 2), (Instr.getmxds, 2), (Instr.getcaps, 4)], ∃ bytes t, exec c.1 s = .next t
         ∧ t.out = s.out ++ [.i3c bytes] ∧ bytes.length = c.2 ∧ { t with out := s.out, freeCtr := s.freeCtr } = s)))
  ∧ ((∀ (s : State) (acked : Bool), s.boot.vaon = true → s.boot.pgood = true → s.i3c.inHdr = false → s.i3c.addr = none →
       (s.i3c.hjEnabled = true → (s.i3c.hotJoinAt = 0 ∨ s.i3c.hotJoinAt - 1 + 10 ^ 10 ≤ s.now) →
         exec (.hotJoinRequest acked) s
           = .next { s with i3c := { s.i3c with hotJoinAt := s.now + 1 }, out := s.out ++ [.hotJoin] })
       ∧ (s.i3c.hjEnabled = false → exec (.hotJoinRequest acked) s = .next s))
     ∧ (∀ (s : State) (src : Fin 4), s.boot.vaon = true → s.i3c.addr.isSome = true → s.i3c.ignoring = false →
       s.i3c.inHdr = false →
       (s.i3c.ibiEnabled = true → ibiDue s src = true → (∀ k < src.val, ibiDue s k = false) →
         (∃ t, exec (.ibiRequest src true) s = .next t ∧ t.out = s.out ++ [.ibi (0xA1 + src) (leBytes 4 (ibiPayload s src))]
           ∧ mget 0 t.i3c.ibiAt src = s.now + 1 ∧ { t with i3c := s.i3c, out := s.out } = s
           ∧ { t.i3c with ibiAt := s.i3c.ibiAt } = s.i3c)
         ∧ (∃ t, exec (.ibiRequest src false) s = .next t ∧ t.out = s.out ++ [.ibi (0xA1 + src) []]
           ∧ mget 0 t.i3c.ibiAt src = s.now + 1 ∧ { t with i3c := s.i3c, out := s.out } = s
           ∧ { t.i3c with ibiAt := s.i3c.ibiAt } = s.i3c))
       ∧ (s.i3c.ibiEnabled = false → ∀ a, exec (.ibiRequest src a) s = .next s)))

/-! ## Reset, power and boot -/

namespace Sys2Proof.Claims

/-- Everything the pins reset is at reset: all but what waits or has left, the clock, the ledger, the target's bus state
and the memory outside (R442, R452, R458). -/
def unitReset (s t : State) : Prop :=
  { t with pending := [], freeCtr := State.reset.freeCtr, now := State.reset.now, ledger := State.reset.ledger,
           out := State.reset.out, i3c := State.reset.i3c, flash := State.reset.flash, roll := State.reset.roll,
           boot := State.reset.boot } = State.reset
    ∧ t.ledger = s.ledger ∧ t.flash = s.flash ∧ t.now = s.now ∧ t.pending = s.pending ∧ t.out = s.out
    ∧ t.boot.inReset = true ∧ t.roll.lastIncarnation = s.roll.lastIncarnation

/-- The Starter has taken the command in I3C_BOOT_CMD and written its outcome; every other register is as it was (R483,
R484). -/
def bootAnswered (s t : State) (outcome : Nat) : Prop :=
  rwBits t .i3c 2 = 0 ∧ rwBits t .i3c 3 % 256 = outcome
    ∧ (∀ b r, regKey b r ≠ regKey .i3c 2 → regKey b r ≠ regKey .i3c 3 → rwBits t b r = rwBits s b r)
    ∧ { t.regs with rw := s.regs.rw } = s.regs

/-- A boot command of this code waits, and the Starter takes commands (R483). -/
def bootCommandWaits (s : State) (code : Nat) : Prop :=
  s.boot.vaon = true ∧ s.boot.inReset = false ∧ s.boot.halted = false ∧ s.boot.romOnly = false
    ∧ rwBits s .i3c 2 % 256 = code ∧ rwBits s .i3c 2 < 65536

end Sys2Proof.Claims

open Sys2Proof.Claims in
/-- R406, R442, R452, R458, R470, R471, R529: what the reset pins, the supply of VAON and a domain's power-on do; a
tile's copy of the time keeps an error of at most 50 ps. Where the rules leave a point open it follows log entries 69,
90, 117 and 150. -/
def Obligations.ResetAndPower : Prop :=
  (∀ (s : State), s.boot.vaon = true →
    (s.boot.inReset = false → ∃ t, exec .rstNAssert s = .next t ∧ unitReset s t ∧ t.i3c = { s.i3c with errors := 0 })
    ∧ (s.boot.inReset = true → exec .rstNAssert s = .next s)
    ∧ (s.boot.inReset = false → ∃ t, exec .pgoodInFall s = .next t ∧ unitReset s t
        ∧ t.i3c = { s.i3c with errors := 0, addr := none } ∧ t.boot.pgood = false)
    ∧ (s.boot.inReset = true → ∃ t, exec .pgoodInFall s = .next t ∧ t.i3c.addr = none ∧ t.boot.pgood = false
        ∧ { t with i3c := s.i3c, boot := s.boot } = s)
    ∧ (∃ t, exec .vaonDown s = .next t ∧ t.boot.vaon = false ∧ t.power.on = 0 ∧ t.flash = s.flash
        ∧ { t with pending := [], freeCtr := State.reset.freeCtr, now := State.reset.now, out := State.reset.out,
                   flash := State.reset.flash, power := State.reset.power, boot := State.reset.boot } = State.reset))
  ∧ (∀ (s : State), s.boot.vaon = false → ∃ t, exec .vaonUp s = .next t ∧ t.boot.vaon = true ∧ t.boot.inReset = true
    ∧ t.flash = s.flash
    ∧ { t with pending := [], freeCtr := State.reset.freeCtr, out := State.reset.out, flash := State.reset.flash }
        = State.reset)
  ∧ (∀ (s : State) (d : Fin 30), s.boot.vaon = true → s.boot.inReset = false → mayPower s d = true →
    ∃ t, exec (.domainPowerOn d) s = .next t ∧ t.power = { s.power with on := s.power.on + 2 ^ d.val }
    ∧ domainOn t d = true
    ∧ (d.val < 4 ∨ (8 ≤ d.val ∧ d.val < 22) → { t with power := s.power } = s)
    ∧ (4 ≤ d.val → d.val < 8 → ∀ p < 32, p / 8 = d.val - 4 → pipeEp t p = s.epoch.live)
    ∧ (22 ≤ d.val → (mget 0 t.time.tileError (d.val - 22)).natAbs ≤ 3276
        ∧ { t.time with tileError := s.time.tileError } = s.time
        ∧ { t with power := s.power, engines := s.engines, time := s.time, freeCtr := s.freeCtr } = s)
    ∧ (22 ≤ d.val → s.boot.committed = true → ∀ dir, slotDir s s.boot.slot = some dir →
        (engine t (eTile (d.val - 22) 0)).run = .running ∧ (engine t (eTile (d.val - 22) 1)).run = .running))

open Sys2Proof.Claims in
/-- R470, R480, R482: at the boot anchor BOOT_MODE is sampled and the Starter runs; it tries the slots of the memory
in order, and takes RECOVERY where there is no memory or no slot left; a consistent signed slot starts its engines and
the settings are applied in a stage; the boot commit is T0 firmware's once the READY bits are set. A settings set is
asked for after the boot and outside an update (R477). Where the rules leave a point open it follows log entries 11,
18, 104 and 106. -/
def Obligations.BootSequence : Prop :=
  (∀ (s : State) (mode : BitVec 2), s.boot.vaon = true → s.boot.inReset = true → rwBits s .i3c 2 = 0 →
    ∃ t, exec (.bootAnchor mode) s = .next t ∧ t.boot.inReset = false ∧ t.boot.pgood = true ∧ t.boot.mode = mode.toNat
    ∧ (engine t eStarter).run = .running
    ∧ (s.flash.present = false ∨ s.flash.sizeMib < 64 → t.boot.phase = .recovery ∧ rwBits t .i3c 3 % 256 = 3)
    ∧ (s.flash.present = true → 64 ≤ s.flash.sizeMib → extensionOk s = true → s.boot.selSlot = none →
        ∀ d x, slotDir s 0 = some d → halfOfFormat s d.settings = some x →
        t.boot.phase = .loading ∧ t.boot.trying = some 0 ∧ t.boot.toTry = [1, 2] ∧ t.boot.half = x.1)
    ∧ t.flash = s.flash ∧ t.ledger.ring = s.ledger.ring)
  ∧ (∀ (s : State) (n : Nat) (d : SlotDir), s.boot.trying = some n → s.boot.phase = .loading → domainsReady s = true →
    slotDir s n = some d →
    (slotConsistent s n d = true → slotSigned s n d = true → s.boot.format = 0 → ∃ t, exec .settingsApply s = .next t
      ∧ t.boot.slot = n ∧ t.boot.fw = d ∧ t.boot.phase = .applying ∧ t.boot.applied = true ∧ t.boot.refused = 0
      ∧ engine t eTriad = engine (loadEngine eTriad 0 (slotImage s n d 0) s) eTriad
      ∧ engine t eTime = engine (loadEngine eTime 1 (slotImage s n d 1) s) eTime
      ∧ (s.epoch.shadowOpen = false → s.epoch.stagePending = false → s.epoch.commit = .none →
          t.epoch.shadowOpen = stageReady s ∧ t.epoch.stagePending = !stageReady s))
    ∧ (slotConsistent s n d = false → s.boot.toTry = [] → ∃ t, exec .settingsApply s = .next t
      ∧ t.boot.phase = .recovery ∧ t.boot.slot = 3 ∧ rwBits t .i3c 3 % 256 = 3 ∧ t.engines = s.engines))
  ∧ (∀ (s : State), s.boot.phase = .applying → s.boot.applied = true → bootReady s = true → s.epoch.shadowOpen = true →
    s.epoch.commit = .none → exec .bootCommit s = .next { s with
      epoch := { s.epoch with commit := .pending }, boot := { s.boot with applied := false, committing := some true } })
  ∧ (∀ (s : State) (bytes : List Byte), s.boot.committed = true → s.boot.halted = false → s.upd.phase = .idle →
    s.upd.op = none → 256 ≤ bytes.length → s.triad.mode ≠ .halted → ∃ t half set, exec (.settingsWrite bytes) s = .next t
    ∧ t.upd = { s.upd with op := some (.settings half set) } ∧ half < 2 ∧ (s.boot.format ≠ 0 → s.boot.half < 2 → half ≠ s.boot.half)
    ∧ { t with upd := s.upd } = s)

open Sys2Proof.Claims in
/-- R483, R484: each boot command taken in its window has its effect and reports it; outside its window it reports
COMMAND_REFUSED and changes nothing else. R492: a mould applied in service is turned away with BUSY while anything of
the kind is open, or NOT_FOUND where the set has no such mould; else the mould is chosen and its stage opened or
waited for. Where the rules leave a point open it follows log entries 118, 119 and 121. -/
def Obligations.BootCommandsAndMoulds : Prop :=
  ((∀ (s : State), bootCommandWaits s 1 →
     (beforeApply s = true → ∃ t, exec .bootHold s = .next t ∧ bootAnswered s t 2
       ∧ t.boot = { s.boot with phase := .held, heldAt := some (s.boot.heldAt.getD s.boot.phase) }
       ∧ { t with boot := s.boot, regs := s.regs } = s)
     ∧ (beforeApply s = false → ∃ t, exec .bootHold s = .next t ∧ bootAnswered s t 5 ∧ { t with regs := s.regs } = s))
   ∧ (∀ (s : State), bootCommandWaits s 2 →
     (∀ p, s.boot.heldAt = some p → p ≠ .rom → ∃ t, exec .bootContinue s = .next t ∧ bootAnswered s t 4
       ∧ t.boot = { s.boot with phase := p, heldAt := none } ∧ { t with boot := s.boot, regs := s.regs } = s)
     ∧ (s.boot.heldAt = none → ∃ t, exec .bootContinue s = .next t ∧ bootAnswered s t 5
       ∧ { t with boot := s.boot, regs := s.regs } = s))
   ∧ (∀ (s : State), bootCommandWaits s 3 →
     let arg := rwBits s .i3c 2 / 256
     (beforeApply s = true → arg ≤ 15 → ∃ t, exec .selectMould s = .next t ∧ bootAnswered s t 4
       ∧ t.boot = { s.boot with selMould := some arg } ∧ { t.power with wanted := s.power.wanted } = s.power
       ∧ { t with boot := s.boot, regs := s.regs, power := s.power } = s)
     ∧ (beforeApply s = false ∨ 15 < arg → ∃ t, exec .selectMould s = .next t ∧ bootAnswered s t 5
       ∧ { t with regs := s.regs } = s))
   ∧ (∀ (s : State), bootCommandWaits s 4 →
     let arg := rwBits s .i3c 2 / 256
     (beforeApply s = true → s.boot.trying = none → arg ≤ 2 → ∃ t, exec .selectSlot s = .next t ∧ bootAnswered s t 4
       ∧ t.boot = { s.boot with selSlot := some arg } ∧ { t with boot := s.boot, regs := s.regs } = s)
     ∧ (beforeApply s = false ∨ s.boot.trying ≠ none ∨ 2 < arg → ∃ t, exec .selectSlot s = .next t ∧ bootAnswered s t 5
       ∧ { t with regs := s.regs } = s))
   ∧ (∀ (s : State), bootCommandWaits s 5 →
     (s.boot.committed = true → s.upd.phase = .idle → ∀ d, slotDir s s.boot.slot = some d →
       ∃ t, exec .triadRestart s = .next t ∧ bootAnswered s t 4
       ∧ t.triad.inVote = 7 - s.triad.retired ∧ t.triad.resyncing = none
       ∧ t.triad.mode = (if s.triad.retired = 0 then .triplex else .duplex)
       ∧ engine t eTriad = engine (loadEngine eTriad 0 (slotImage s s.boot.slot d 0) s) eTriad
       ∧ (∀ e, e ≠ eTriad → engine t e = engine s e) ∧ (∀ n ∈ s.triad.stopped, n < 512 → n ∈ t.triad.stopped)
       ∧ { t with triad := s.triad, engines := s.engines, ledger := s.ledger, regs := s.regs } = s)
     ∧ (s.boot.committed = false → ∃ t, exec .triadRestart s = .next t ∧ bootAnswered s t 5
       ∧ { t with regs := s.regs } = s))
   ∧ (∀ (s : State), bootCommandWaits s 6 → ∃ t, exec .reboot s = .next t ∧ unitReset s t
     ∧ t.i3c = { s.i3c with errors := 0 }))
  ∧ (∀ (s : State) (src : Source), accepts s src .starter 1 4 0 → flipsOf s .starter 1 = 0 →
       let m := rwField s .starter 1 3 0
       (s.boot.phase ≠ .running ∨ s.epoch.shadowOpen = true ∨ s.epoch.stagePending = true ∨ s.epoch.commit ≠ .none →
         ∃ t, exec (.starterMouldGo src) s = .next t ∧ t.boot = { s.boot with mouldResult := 0x09 }
         ∧ otherRegsKept s t .starter 1 ∧ { t with boot := s.boot, regs := s.regs, perf := s.perf } = s)
       ∧ (s.boot.phase = .running → s.epoch.shadowOpen = false → s.epoch.stagePending = false → s.epoch.commit = .none →
         (m ≠ 0 → mouldRecs (setInUse s) m = [] → ∃ t, exec (.starterMouldGo src) s = .next t
           ∧ t.boot = { s.boot with mouldResult := 0x05 } ∧ eventRaised s t ∧ otherRegsKept s t .starter 1
           ∧ { t with boot := s.boot, regs := s.regs, perf := s.perf, ledger := s.ledger } = s)
         ∧ (m = 0 ∨ mouldRecs (setInUse s) m ≠ [] → stageReady s = false → ∃ t, exec (.starterMouldGo src) s = .next t
           ∧ t.boot = { s.boot with
               phase := .mould
               chosen := m
               refused := 0
               mouldWait := some (rwField s .starter 1 4 4 == 1) }
           ∧ t.epoch = { s.epoch with stagePending := true } ∧ otherRegsKept s t .starter 1
           ∧ { t with boot := s.boot, epoch := s.epoch, regs := s.regs, perf := s.perf } = s)
         ∧ (m = 0 → setInUse s = none → rwField s .starter 1 4 4 = 0 → stageReady s = true →
           ∃ t, exec (.starterMouldGo src) s = .next t ∧ t.boot.phase = .mould ∧ t.boot.chosen = 0
           ∧ t.boot.committing = some false ∧ t.epoch.shadowOpen = true ∧ t.epoch.commit = .pending
           ∧ liveBank t = liveBank s ∧ t.engines = s.engines)))

/-! ## Monitors -/

/-- R526, R527, R533, R534: a sample shows what it read; a rail that leaves its band and a sensor that reaches its
alarm level raise an event, a trip switches PD04 to PD29 off and holds them, and a VCORE target moves by 5 mV. Where
the rules leave a point open it follows log entries 94, 132 and 133. -/
def Obligations.Monitors : Prop :=
  (∀ (s : State) (mv : BitVec 12), s.boot.vaon = true → ∃ t, exec (.railSample [mv]) s = .next t
    ∧ mget 0 t.sensor.rails 0 = mv.toNat ∧ (∀ r, r ≠ 0 → mget 0 t.sensor.rails r = mget 0 s.sensor.rails r)
    ∧ (t.sensor.railOut.testBit 0 = true ↔ mv.toNat + 15 < s.sensor.targetA ∨ 765 < mv.toNat)
    ∧ (s.sensor.railOut.testBit 0 = false → (mv.toNat + 15 < s.sensor.targetA ∨ 765 < mv.toNat) →
        mget 0 s.sensor.railAt 0 = 0 → eventRaised s t)
    ∧ (¬ (mv.toNat + 15 < s.sensor.targetA ∨ 765 < mv.toNat) → t.ledger = s.ledger)
    ∧ { t with sensor := s.sensor, ledger := s.ledger } = s)
  ∧ (∀ (s : State) (mv : List (BitVec 12)), s.boot.vaon = true → ∃ t, exec (.railSample mv) s = .next t
    ∧ (∀ r < min 9 mv.length, mget 0 t.sensor.rails r = (mv.getD r 0).toNat)
    ∧ { t with sensor := s.sensor, ledger := s.ledger } = s)
  ∧ (∀ (s : State) (v : BitVec 11), s.boot.vaon = true →
    (v.toInt < 460 → ∃ t, exec (.temperatureSample [v]) s = .next t ∧ mget 0 t.sensor.temps 0 = v.toNat
      ∧ { t.sensor with temps := s.sensor.temps, alarms := s.sensor.alarms } = s.sensor
      ∧ { t with sensor := s.sensor, ledger := s.ledger } = s)
    ∧ (460 ≤ v.toInt → ∃ t, exec (.temperatureSample [v]) s = .next t ∧ mget 0 t.sensor.temps 0 = v.toNat
      ∧ t.power.tripHold = true ∧ (∀ d, 4 ≤ d → d < 30 → domainOn t d = false)
      ∧ (∀ d < 4, domainOn t d = domainOn s d)))
  ∧ (∀ (s : State) (side : Fin 2) (target : BitVec 10), s.boot.vaon = true → 650 ≤ target.toNat → target.toNat ≤ 750 →
    let old := if side = 0 then s.sensor.targetA else s.sensor.targetB
    let last := mget 0 s.sensor.targetAt side
    (target.toNat = old + 5 ∨ target.toNat + 5 = old → last = 0 ∨ last - 1 + 10 ^ 10 ≤ s.now →
      ∃ t, exec (.vcoreTargetStep side target) s = .next t
      ∧ t.sensor.targetA = (if side = 0 then target.toNat else s.sensor.targetA)
      ∧ t.sensor.targetB = (if side = 0 then s.sensor.targetB else target.toNat)
      ∧ { t.sensor with targetA := s.sensor.targetA, targetB := s.sensor.targetB, targetAt := s.sensor.targetAt } = s.sensor
      ∧ { t with sensor := s.sensor } = s)
    ∧ (last ≠ 0 → s.now < last - 1 + 10 ^ 10 → exec (.vcoreTargetStep side target) s = .next s))

/-! ## Firmware update -/

namespace Sys2Proof.Claims

/-- The Triad runs a T1 program at a TRAP.CALL and is not in a trap: it may ask T0 firmware for a service (R498). -/
def mayCall (s : State) : Prop := starts s 0 ∧ tierOf s 0 = 1 ∧ ¬ inTrap s 0

/-- The service has answered: k3 holds a result of this code and value, the program continues behind its call in its
tier, and no other general register of the Triad and no other engine has changed (R498). -/
def served (s t : State) (code value : Nat) : Prop :=
  (∀ k, kget t 0 k = if k = 3 then result code value else kget s 0 k)
    ∧ (engine t 0).pc = (engine s 0).pc + 4 ∧ tierOf t 0 = tierOf s 0 ∧ ¬ inTrap t 0
    ∧ (engine t 0).status.toNat / 16 % 2 = (engine s 0).status.toNat / 16 % 2
    ∧ (engine t 0).mem = (engine s 0).mem ∧ (engine t 0).owner = (engine s 0).owner
    ∧ ∀ f, f ≠ 0 → engine t f = engine s f

/-- CURRENT is invalid: the magic of its directory reads 0 (R500). -/
def currentInvalid (t : State) : Prop := flashRead t 0x100000 4 = [0, 0, 0, 0]

end Sys2Proof.Claims

open Sys2Proof.Claims in
/-- R498 to R501, R506, R507: each update service answers in k3 and has its effect; a refusal names its reason and
leaves the phase, but an INSTALL refused for its image invalidates CURRENT and ends the update. That the row is the
whole service, from the call to its return, is the model's choice. Where the rules leave a point open it follows log
entries 122, 123 and 124. -/
def Obligations.UpdateServices : Prop :=
  ∀ (s : State), mayCall s →
    let o := ownerOf s eTriad
    ((s.upd.lock = none ∨ s.upd.lock = some o) → ∃ t, exec .updLock s = .next t ∧ served s t 0x00 0
      ∧ t.upd = { s.upd with lock := some o } ∧ { t with engines := s.engines, upd := s.upd, perf := s.perf } = s)
    ∧ (∀ o', s.upd.lock = some o' → o' ≠ o → ∃ t, exec .updLock s = .next t ∧ served s t 0x09 0
      ∧ { t with engines := s.engines, perf := s.perf } = s)
    ∧ (s.upd.lock = some o → ∃ t, exec .updUnlock s = .next t ∧ served s t 0x00 0
      ∧ t.upd = { s.upd with lock := none } ∧ { t with engines := s.engines, upd := s.upd, perf := s.perf } = s)
    ∧ (s.upd.lock ≠ some o → ∃ t, exec .updUnlock s = .next t ∧ served s t 0x02 0
      ∧ { t with engines := s.engines, perf := s.perf } = s)
    ∧ (updReason s .idle = 0 → ∃ t, exec .updBegin s = .next t ∧ served s t 0x08 0
      ∧ t.upd.phase = .prepared ∧ t.upd.op = some .prepare ∧ t.upd.written = 0 ∧ t.upd.lock = none ∧ eventRaised s t
      ∧ { t with engines := s.engines, upd := s.upd, ledger := s.ledger, perf := s.perf } = s)
    ∧ (updReason s .idle ≠ 0 → ∃ t, exec .updBegin s = .next t ∧ served s t 0x0C (updReason s .idle)
      ∧ t.upd = { s.upd with reason := updReason s .idle } ∧ eventRaised s t
      ∧ { t with engines := s.engines, upd := s.upd, ledger := s.ledger, perf := s.perf } = s)
    ∧ (let off := (kget s 0 3).toNat
      let h := (kget s 0 4).toNat
      let len := (kget s 0 5).toNat
      let pool := hPool h
      (s.upd.phase = .prepared → s.upd.op = none → h < 2 ^ 32 → 1 ≤ pool → pool ≤ 4 → inStorage s pool (hIdx h) = true →
        1 ≤ len → len ≤ bufSize pool → len < 65536 → off = s.upd.written → off + len ≤ 0x1000000 →
        holdsBuffer s o h = true → ∃ t, exec .updWrite s = .next t ∧ served s t 0x08 0
        ∧ t.upd = { s.upd with
            op := some (.program off (memRead s.press.scratch (hIdx h * bufSize pool) len))
            written := off + len }
        ∧ { t with engines := s.engines, upd := s.upd, perf := s.perf } = s)
      ∧ (s.upd.phase ≠ .prepared → ∃ t, exec .updWrite s = .next t ∧ served s t 0x0C 6
        ∧ t.upd = { s.upd with reason := 6 } ∧ { t with engines := s.engines, upd := s.upd, perf := s.perf } = s)
      ∧ (s.upd.phase = .prepared → s.upd.op = none → off ≠ s.upd.written ∨ 0x1000000 < off + len ∨ 2 ^ 32 ≤ h
          ∨ pool = 0 ∨ 4 < pool ∨ inStorage s pool (hIdx h) = false ∨ 65536 ≤ len ∨ bufSize pool < len →
        ∃ t, exec .updWrite s = .next t ∧ served s t 0x0A 0 ∧ { t with engines := s.engines, perf := s.perf } = s)
      ∧ (s.upd.phase = .prepared → s.upd.op ≠ none →
        ∃ t, exec .updWrite s = .next t ∧ served s t 0x09 0 ∧ { t with engines := s.engines, perf := s.perf } = s)
      ∧ (s.upd.phase = .prepared → s.upd.op = none → h < 2 ^ 32 → 1 ≤ pool → pool ≤ 4 → inStorage s pool (hIdx h) = true →
        len ≤ bufSize pool → len < 65536 → off = s.upd.written → off + len ≤ 0x1000000 → holdsBuffer s o h = false →
        ∃ t, exec .updWrite s = .next t ∧ served s t 0x03 0 ∧ { t with engines := s.engines, perf := s.perf } = s))
    ∧ (updReason s .prepared = 0 → imageReason s = 0 → ∃ t, exec .updInstall s = .next t ∧ served s t 0x08 0
      ∧ t.upd.phase = .shadow ∧ t.upd.chan = some (channelU s) ∧ t.upd.imported = false
      ∧ t.triad = { s.triad with mode := .duplex, inVote := s.triad.inVote - 2 ^ channelU s }
      ∧ (s.upd.magic.length = 4 → flashRead t 0x100000 4 = s.upd.magic) ∧ eventRaised s t
      ∧ { t with engines := s.engines, upd := s.upd, triad := s.triad, flash := s.flash, ledger := s.ledger,
                 perf := s.perf } = s)
    ∧ (updReason s .prepared = 0 → imageReason s ≠ 0 → ∃ t, exec .updInstall s = .next t
      ∧ served s t 0x0C (imageReason s) ∧ t.upd.phase = .idle ∧ t.upd.reason = imageReason s ∧ currentInvalid t
      ∧ eventRaised s t
      ∧ { t with engines := s.engines, upd := s.upd, flash := s.flash, ledger := s.ledger, perf := s.perf } = s)
    ∧ (updReason s .prepared ≠ 0 → ∃ t, exec .updInstall s = .next t ∧ served s t 0x0C (updReason s .prepared)
      ∧ t.upd = { s.upd with reason := updReason s .prepared } ∧ eventRaised s t
      ∧ { t with engines := s.engines, upd := s.upd, ledger := s.ledger, perf := s.perf } = s)
    ∧ (s.upd.phase = .awaitConfirm → ∃ t, exec .updConfirm s = .next t ∧ served s t 0x00 0
      ∧ t.upd = { s.upd with phase := .idle } ∧ eventRaised s t
      ∧ { t with engines := s.engines, upd := s.upd, ledger := s.ledger, perf := s.perf } = s)
    ∧ (s.upd.phase ≠ .awaitConfirm → ∃ t, exec .updConfirm s = .next t ∧ served s t 0x0C 6
      ∧ t.upd = { s.upd with reason := 6 } ∧ { t with engines := s.engines, upd := s.upd, perf := s.perf } = s)
    ∧ (s.upd.phase = .shadow → ∃ t, exec .updRollback s = .next t ∧ served s t 0x08 0 ∧ t.upd = { s.upd with phase := .handback }
      ∧ currentInvalid t ∧ { t with engines := s.engines, upd := s.upd, triad := s.triad, flash := s.flash, perf := s.perf } = s)
    ∧ (s.upd.phase = .prepared → s.upd.op = none → ∃ t, exec .updRollback s = .next t ∧ served s t 0x08 0
      ∧ t.upd = { s.upd with phase := .idle } ∧ currentInvalid t
      ∧ { t with engines := s.engines, upd := s.upd, flash := s.flash, perf := s.perf } = s)
    ∧ ((s.upd.phase = .handover ∨ s.upd.phase = .tiles ∨ s.upd.phase = .time ∨ s.upd.phase = .awaitConfirm) →
      ∃ t, exec .updRollback s = .next t ∧ t.boot.inReset = true ∧ t.upd.phase = .idle ∧ currentInvalid t
      ∧ t.engines = State.reset.engines ∧ t.ledger = s.ledger)
    ∧ (s.upd.phase = .idle → ∃ t, exec .updRollback s = .next t ∧ served s t 0x0C 6
      ∧ t.upd = { s.upd with reason := 6 } ∧ { t with engines := s.engines, upd := s.upd, perf := s.perf } = s)
    ∧ (∃ t v, exec .updStatus s = .next t ∧ served s t 0x00 v ∧ v % 16 = s.upd.phase.code
      ∧ v / 16 % 2 = (if s.upd.lock = none then 0 else 1) ∧ v / 32 % 2 = (if s.upd.op = none then 0 else 1)
      ∧ v / 64 % 4 = s.boot.slot % 4 ∧ v / 256 % 256 = s.upd.reason % 256
      ∧ v / 65536 = ((slotDir s 0).map (fun d => d.version)).getD 0
      ∧ { t with engines := s.engines, perf := s.perf } = s)

open Sys2Proof.Claims in
/-- R477, R500: the memory operation in progress ends, and the bytes are there; a failed one of an update is
remembered. Where the rules leave a point open it follows log entries 126 and 131. -/
def Obligations.MemoryOperations : Prop :=
  (∀ (s : State), s.upd.op = none → ∀ ok, exec (.flashOperationDone ok) s = .next s)
  ∧ (∀ (s : State), s.upd.op = some .prepare → s.boot.slot ≠ 0 → ∃ t, exec (.flashOperationDone true) s = .next t
    ∧ t.upd = { s.upd with op := none }
    ∧ (∀ a, flashRead t a 1 = if 0x100000 ≤ a ∧ a < 0x1100000 then [0xFF] else flashRead s a 1)
    ∧ t.boot = s.boot ∧ { t with upd := s.upd, flash := s.flash } = s)
  ∧ (∀ (s : State), s.upd.op = some .prepare → s.boot.slot = 0 → s.upd.flashFailed = false →
    ∃ t, exec (.flashOperationDone true) s = .next t ∧ t.upd.op = none
    ∧ (∀ i < 0x1000000, flashRead t (0x1100000 + i) 1 = flashRead s (0x100000 + i) 1)
    ∧ (t.upd.flashFailed = false → t.boot = { s.boot with slot := 1 }
        ∧ ∀ i < 0x1000000, flashRead t (0x100000 + i) 1 = [0xFF])
    ∧ { t with upd := s.upd, flash := s.flash, boot := s.boot } = s)
  ∧ (∀ (s : State) (off : Nat) (bs : List Byte), s.upd.op = some (.program off bs) →
    (4 ≤ off → ∃ t, exec (.flashOperationDone true) s = .next t ∧ t.upd = { s.upd with op := none }
      ∧ flashRead t (0x100000 + off) bs.length = bs
      ∧ (∀ a, a < 0x100000 + off ∨ 0x100000 + off + bs.length ≤ a → flashRead t a 1 = flashRead s a 1)
      ∧ { t with upd := s.upd, flash := s.flash } = s)
    ∧ (off = 0 → 4 ≤ bs.length → ∃ t, exec (.flashOperationDone true) s = .next t
      ∧ t.upd = { s.upd with op := none, magic := s.upd.magic ++ bs.take 4 }
      ∧ flashRead t 0x100004 (bs.length - 4) = bs.drop 4
      ∧ (∀ a, a < 0x100004 → flashRead t a 1 = flashRead s a 1)
      ∧ { t with upd := s.upd, flash := s.flash } = s)
    ∧ exec (.flashOperationDone false) s = .next { s with upd := { s.upd with op := none, flashFailed := true } })
  ∧ (∀ (s : State) (half : Nat) (bs : List Byte), s.upd.op = some (.settings half bs) → bs.length ≤ 0x400000 →
    ∃ t, exec (.flashOperationDone true) s = .next t ∧ t.upd = { s.upd with op := none }
    ∧ flashRead t (halfBase half) bs.length = bs
    ∧ (∀ a, a < halfBase half ∨ halfBase half + 0x400000 ≤ a → flashRead t a 1 = flashRead s a 1)
    ∧ { t with upd := s.upd, flash := s.flash, boot := s.boot } = s)

open Sys2Proof.Claims in
/-- R86, R501 to R505: channel u's import, the check before the handover, the handover, handback, the reload of tile
cores and time engine, each with its phase and what it starts or stops, and the restart of a halted core. That the registers and the pc of the new Triad
image are free values is the model's choice. Where the rules leave a point open it follows log entries 127, 128, 129
and 130. -/
def Obligations.UpdateSequence : Prop :=
  (∀ (s : State) (bytes : List Byte), s.upd.phase = .shadow → s.upd.imported = false →
    (∀ c : Fin 6, c ≠ 0 → ∃ t, exec (.settingsImport c bytes) s = .next t ∧ t.upd = { s.upd with phase := .handback }
      ∧ eventRaised s t ∧ { t.triad with faultHeld := s.triad.faultHeld } = s.triad
      ∧ { t with upd := s.upd, triad := s.triad, ledger := s.ledger } = s)
    ∧ (∀ d x, slotDir s 0 = some d → d.settings = s.boot.format → setInUse s = some x →
      exec (.settingsImport 0 bytes) s = .next { s with upd := { s.upd with imported := true } }))
  ∧ (∀ (s : State), s.upd.phase = .shadow → s.upd.imported = true →
    (conditionReason s = 0 → ∃ t, exec .handoverCheck s = .next t ∧ t.upd = { s.upd with phase := .handover }
      ∧ eventRaised s t ∧ { t.triad with faultHeld := s.triad.faultHeld } = s.triad
      ∧ { t with upd := s.upd, triad := s.triad, ledger := s.ledger } = s)
    ∧ (conditionReason s ≠ 0 → s.upd.checkAt = 0 →
      exec .handoverCheck s = .next { s with upd := { s.upd with checkAt := s.now + 1 } })
    ∧ (conditionReason s ≠ 0 → s.upd.checkAt ≠ 0 → s.now < s.upd.checkAt - 1 + 10 ^ 13 →
      exec .handoverCheck s = .next s)
    ∧ (conditionReason s ≠ 0 → s.upd.checkAt ≠ 0 → s.upd.checkAt - 1 + 10 ^ 13 ≤ s.now →
      ∃ t, exec .handoverCheck s = .next t ∧ t.upd = { s.upd with phase := .handback, reason := conditionReason s }
      ∧ eventRaised s t ∧ { t with upd := s.upd, triad := s.triad, ledger := s.ledger } = s))
  ∧ (∀ (s : State), s.upd.phase = .handover →
    (∀ d, slotDir s 0 = some d → ∃ t, exec (.handover true) s = .next t ∧ t.upd.phase = .tiles ∧ t.upd.nextCore = 0
      ∧ t.triad = { s.triad with mode := .triplex, inVote := 7 } ∧ t.boot.slot = 0 ∧ t.boot.fw = d
      ∧ (engine t eTriad).run = .running ∧ (∀ e, e ≠ eTriad → engine t e = engine s e) ∧ eventRaised s t
      ∧ { t with upd := s.upd, triad := s.triad, boot := s.boot, engines := s.engines, ledger := s.ledger,
                 freeCtr := s.freeCtr } = s)
    ∧ (∃ t, exec (.handover false) s = .next t ∧ t.triad.mode = .halted ∧ t.upd.phase = .idle ∧ currentInvalid t
      ∧ (∀ e, e ≠ eTriad → engine t e = engine s e)))
  ∧ (∀ (s : State) (d : SlotDir), s.upd.phase = .handback → slotDir s 1 = some d →
    (slotImageOk s 1 d 0 = true → ∃ t, exec (.handback true) s = .next t
      ∧ t.triad = { s.triad with mode := .triplex, inVote := 7 }
      ∧ t.upd = { s.upd with phase := .idle, chan := none, imported := false } ∧ currentInvalid t
      ∧ { t with upd := s.upd, triad := s.triad, flash := s.flash } = s)
    ∧ (∃ t, exec (.handback false) s = .next t ∧ t.boot.inReset = true ∧ currentInvalid t ∧ eventRaised s t
      ∧ t.engines = State.reset.engines))
  ∧ (∀ (s : State) (tile : Fin 8) (b : Fin 2), s.upd.phase = .tiles → s.upd.nextCore = 2 * tile.val + b.val →
    let e := eTile tile b
    (domainOn s (22 + tile.val) = true → 2 * tile.val + b.val < 15 → ∃ t, exec (.tileCoreReload tile b true) s = .next t
      ∧ t.upd = { s.upd with nextCore := s.upd.nextCore + 1, coreFailed := false }
      ∧ engine t e = engine (loadEngine e 2 (currentImage s 2) s) e ∧ (∀ f, f ≠ e → engine t f = engine s f))
    ∧ (domainOn s (22 + tile.val) = true → 2 * tile.val + b.val = 15 → ∃ t, exec (.tileCoreReload tile b true) s = .next t
      ∧ t.upd.phase = .time ∧ t.upd.nextCore = 16 ∧ (engine t eTime).run = .held ∧ t.time.state = .holdover
      ∧ engine t e = engine (loadEngine e 2 (currentImage s 2) s) e)
    ∧ (domainOn s (22 + tile.val) = true → s.upd.coreFailed = false → ∃ t, exec (.tileCoreReload tile b false) s = .next t
      ∧ t.upd = { s.upd with coreFailed := true } ∧ (engine t e).run = .held ∧ (∀ f, f ≠ e → engine t f = engine s f))
    ∧ (domainOn s (22 + tile.val) = true → s.upd.coreFailed = true → ∃ t, exec (.tileCoreReload tile b false) s = .next t
      ∧ t.upd = { s.upd with nextCore := 255 } ∧ (engine t e).run = .held ∧ (∀ f, f ≠ e → engine t f = engine s f)))
  ∧ (∀ (s : State) (d : SlotDir), slotDir s s.boot.slot = some d →
    (∀ (tile : Fin 8) (b : Fin 2), mayRestart s (eTile tile b) (22 + tile.val) = true →
      (∃ t, exec (.tileCoreReload tile b true) s = .next t ∧ t.upd = s.upd ∧ (∀ f, f ≠ eTile tile b → engine t f = engine s f)
        ∧ engine t (eTile tile b) = engine (loadEngine (eTile tile b) 2 (slotImage s s.boot.slot d 2) s) (eTile tile b))
      ∧ (∃ t, exec (.tileCoreReload tile b false) s = .next t ∧ t.upd = s.upd ∧ ∀ f, engine t f = engine s f))
    ∧ (mayRestart s eTime 2 = true →
      exec (.timeEngineReload true) s = .next (loadEngine eTime 1 (slotImage s s.boot.slot d 1) s)
      ∧ exec (.timeEngineReload false) s = .next s))
  ∧ (∀ (s : State), s.upd.phase = .time → s.upd.nextCore = 16 →
    (∃ t, exec (.timeEngineReload true) s = .next t ∧ t.upd = { s.upd with phase := .awaitConfirm }
      ∧ engine t eTime = engine (loadEngine eTime 1 (currentImage s 1) s) eTime
      ∧ (∀ f, f ≠ eTime → engine t f = engine s f) ∧ eventRaised s t
      ∧ { t with upd := s.upd, engines := s.engines, ledger := s.ledger } = s)
    ∧ (s.upd.coreFailed = false → exec (.timeEngineReload false) s
        = .next { s with upd := { s.upd with coreFailed := true } })
    ∧ (s.upd.coreFailed = true → ∃ t, exec (.timeEngineReload false) s = .next t
      ∧ t.upd = { s.upd with nextCore := 255 } ∧ eventRaised s t ∧ { t with upd := s.upd, ledger := s.ledger } = s))

/-! ## The queue, the step and the words -/

namespace Sys2Proof.Claims

/-- The vote on what the instruction presents agrees, or it presents nothing to a vote: a word carries no vote. -/
def voteAgrees : Instr → Bool
  | .stB _ _ _ _ v => v == .agree
  | .stH _ _ _ _ v => v == .agree
  | .stW _ _ _ _ v => v == .agree
  | .stD _ _ _ _ v => v == .agree
  | .ldc _ _ _ _ v => v == .agree
  | .stc _ _ _ _ v => v == .agree
  | _ => true

/-- The commands that write a byte memory of an engine, the Press, the Cave window or the memory outside, but for those
of the frame path and the pager. -/
def writesBytes : Instr → Bool
  | .stB .. | .stH .. | .stW .. | .stD .. | .copy .. | .vatFillDone | .flashOperationDone _ | .settingsImport ..
  | .handover _ | .handback _ | .timeEngineReload _ | .vaonUp | .vaonDown | .rstNAssert | .pgoodInFall => true
  | _ => false

end Sys2Proof.Claims

open Sys2Proof.Claims in
/-- A step takes the command at the front of the queue and is exec of it on the state with the queue's rest; on an empty
queue one core clock passes, and the step completes. Where the
rules leave a point open it follows log entries 2 and 4. -/
def Obligations.StepRunsCommand : Prop :=
  (∀ (s : State) (c : Instr) (cs : List Instr), s.pending = c :: cs →
    step s = exec c { s with pending := cs } ∧ core.step s = exec c { s with pending := cs })
  ∧ (∀ (s : State), s.pending = [] → step s = .next (idleClock s))

/-- Every command completes in every state: none ends in a fault or a refusal. Where the rules leave a point open it
follows log entry 20. -/
def Obligations.EveryCommandCompletes : Prop :=
  ∀ (c : Instr) (s : State), ∃ t, exec c s = .next t

/-- R12, R25, R69, R103, R412, R442, R458, R467: the state after reset. Registers read their Reset values in both
generations, engines stand in T0 with interrupts off and outside a trap, epoch 0 is live with no shadow open, the time
is FREE and not set, the ledger is empty, no domain but PD00 is on, the target has no address and both its enables on,
and nothing waits. The byte memories of the state after reset are in canonical form. Where the rules leave a point
open it follows log entries 3 and 5. -/
def Obligations.ResetState : Prop :=
  (let s := State.reset
   (∀ b r, rwBits s b r = (specOf b r).reset &&& (specOf b r).rw)
     ∧ (∀ b r, s.bank0.rwlBits b r = (specOf b r).reset &&& (specOf b r).rwl
         ∧ s.bank1.rwlBits b r = (specOf b r).reset &&& (specOf b r).rwl)
     ∧ (∀ e, (engine s e).status = 0 ∧ (engine s e).cause = 0 ∧ canRun s e = false)
     ∧ s.epoch.live = 0 ∧ s.epoch.shadowOpen = false ∧ s.epoch.commit = .none
     ∧ s.time.state = .free ∧ s.time.notSet = true
     ∧ s.ledger.fifo = [] ∧ s.ledger.head = 0 ∧ s.ledger.dropped = 0
     ∧ (∀ d, 1 ≤ d → d < 30 → domainOn s d = false)
     ∧ s.i3c.addr = none ∧ s.i3c.ibiEnabled = true ∧ s.i3c.hjEnabled = true
     ∧ s.upd.phase = .idle ∧ s.upd.lock = none ∧ s.pending = [] ∧ s.out = [])
  ∧ (State.memoriesWf State.reset)

open Sys2Proof.Claims in
/-- The byte memories stay in canonical form: a step on a state whose memories are, with a command at the front that
writes them, answers a state whose memories are. Where the rules leave a point open it follows log entry 3. -/
def Obligations.MemoriesStayCanonical : Prop :=
  ∀ (s t : State) (c : Instr) (cs : List Instr), s.pending = c :: cs → writesBytes c = true → s.memoriesWf →
    step s = .next t → t.memoriesWf

open Sys2Proof.Claims in
/-- R110 to R140: every Krenus-C instruction, with every operand at every value, decodes from its own word. Where the
rules leave a point open it follows log entry 4. -/
def Obligations.EncodeThenDecode : Prop :=
  ∀ (i : Instr) (e : EngineId) (w : BitVec 32), encodeKrenus i = some (e, w) → voteAgrees i = true →
    decodeKrenus e w = some i

/-- R110 to R140: a word that decodes to an instruction is that instruction's word: each word has one meaning, and no
bit of it is dropped. Where the rules leave a point open it follows log entry 4. -/
def Obligations.DecodeThenEncode : Prop :=
  ∀ (i : Instr) (e : EngineId) (w : BitVec 32), decodeKrenus e w = some i → encodeKrenus i = some (e, w)
end

