-- ==== Sys2Proof/Laws/Cells.lean ====
section
/-!
SUPPORT. CRC-32C and the bytes of a cell (R324, R544): a CRC has 32 bits, four big-endian bytes hold them, and a cell
is 276 bytes of which the last four are the CRC of the others.
-/
namespace Sys2Proof.Laws
open Sys2Proof Sys2Proof.Machine

/-- A bit leaves 32 bits. -/
theorem crcBit_lt {r : Nat} (h : r < 2 ^ 32) : crcBit r < 2 ^ 32 := by
  unfold crcBit; split
  · exact Nat.xor_lt_two_pow (by omega) (by decide)
  · omega

/-- A byte leaves 32 bits. -/
theorem crcByte_lt {r : Nat} (b : Byte) (h : r < 2 ^ 32) : crcByte r b < 2 ^ 32 := by
  have : r ^^^ b.toNat < 2 ^ 32 := Nat.xor_lt_two_pow h (by omega)
  simp only [crcByte]
  repeat (first | exact this | apply crcBit_lt)

/-- A CRC-32C continued from 32 bits has 32 bits. -/
theorem crc32c_lt {v : Nat} (bs : List Byte) (h : v < 2 ^ 32) : crc32c v bs < 2 ^ 32 := by
  have step : ∀ (bs : List Byte) (r : Nat), r < 2 ^ 32 → bs.foldl crcByte r < 2 ^ 32 := by
    intro bs; induction bs with
    | nil => exact fun r h => h
    | cons b bs ih => exact fun r h => ih _ (crcByte_lt b h)
  exact Nat.xor_lt_two_pow (step bs _ (Nat.xor_lt_two_pow h (by decide))) (by decide)

/-- Four big-endian bytes of 32 bits hold them. -/
theorem beNat_beBytes4 {n : Nat} (h : n < 2 ^ 32) : beNat (beBytes 4 n) = n := by
  simp [beNat, beBytes, leBytes]; omega

/-- A cell is 276 bytes and its last 4 are its CRC. -/
theorem cellBytes_crc (h p : List Byte) (hh : h.length = 16) (hp : p.length ≤ 256) :
    (cellBytes h p).length = 276 ∧ beAt (cellBytes h p) 272 4 = crc32c 0 ((cellBytes h p).take 272) := by
  have hb : (h ++ p ++ List.replicate (256 - p.length) (0 : Byte)).length = 272 := by simp; omega
  generalize hbody : h ++ p ++ List.replicate (256 - p.length) (0 : Byte) = body at hb
  have h4 : (beBytes 4 (crc32c 0 body)).length = 4 := by simp [beBytes, leBytes]
  simp only [cellBytes, hbody]
  refine ⟨by simp [hb, h4], ?_⟩
  rw [List.take_left' hb]
  have hd : List.drop 272 (body ++ beBytes 4 (crc32c 0 body)) = beBytes 4 (crc32c 0 body) := List.drop_left' hb
  simp only [beAt, bytesAt, hd, List.take_of_length_le (Nat.le_of_eq h4), h4, Nat.sub_self, List.replicate_zero,
    List.append_nil]
  exact beNat_beBytes4 (crc32c_lt _ (by decide))

/-- A cell's header is 16 bytes. -/
theorem cellHeader_length (c : TxCell) (ack part count : Nat) : (cellHeader c ack part count).length = 16 := by
  simp [cellHeader, beBytes, leBytes]

end Sys2Proof.Laws
end

