-- ==== Sys2Proof/Laws/SMap.lean ====
section
/-!
SUPPORT. Sparse arrays and byte memories: a read after a write to the same place gives the value written, a write
leaves every other place alone, and every write keeps the canonical form.
-/
namespace Sys2Proof.Machine

variable {α : Type}

/-! ## Reads after writes -/

@[simp] theorem mget_nil (d : α) (k : Nat) : mget d [] k = d := rfl

theorem mget_mput_self (d : α) (m : SMap α) (k : Nat) (v : α) : mget d (mput m k v) k = v := by
  induction m with
  | nil => simp [mput, mget]
  | cons p m ih =>
    obtain ⟨j, w⟩ := p
    unfold mput
    split
    · simp [mget]
    · split
      · simp [mget]
      · simp [mget, *]

theorem mget_mput_ne (d : α) (m : SMap α) {k i : Nat} (v : α) (h : i ≠ k) : mget d (mput m k v) i = mget d m i := by
  induction m with
  | nil => simp [mput, mget, h.symm]
  | cons p m ih =>
    obtain ⟨j, w⟩ := p
    unfold mput
    split
    · subst_vars; simp [mget, h.symm]
    · split
      · simp [mget, h.symm]
      · simp [mget, ih]

theorem mget_mdel_self (d : α) (m : SMap α) (k : Nat) : mget d (mdel m k) k = d := by
  induction m with
  | nil => rfl
  | cons p m ih =>
    obtain ⟨j, w⟩ := p
    unfold mdel
    split
    · exact ih
    · simp [mget, *]

theorem mget_mdel_ne (d : α) (m : SMap α) {k i : Nat} (h : i ≠ k) : mget d (mdel m k) i = mget d m i := by
  induction m with
  | nil => rfl
  | cons p m ih =>
    obtain ⟨j, w⟩ := p
    unfold mdel
    split
    · subst_vars; simp [mget, h.symm, ih]
    · simp [mget, ih]

theorem mhas_mdel_self (m : SMap α) (k : Nat) : mhas (mdel m k) k = false := by
  induction m with
  | nil => rfl
  | cons p m ih =>
    obtain ⟨j, w⟩ := p
    unfold mdel
    split
    · exact ih
    · simp [mhas, *]

theorem mrising_mono {m : SMap α} {a b : Nat} (h : a ≤ b) (hm : mrising b m = true) : mrising a m = true := by
  cases m with
  | nil => rfl
  | cons p m => simp [mrising] at *; exact ⟨by omega, hm.2⟩

theorem mrising_mdel {m : SMap α} {lo : Nat} (k : Nat) (hm : mrising lo m = true) : mrising lo (mdel m k) = true := by
  induction m generalizing lo with
  | nil => rfl
  | cons p m ih =>
    obtain ⟨j, w⟩ := p
    simp only [mrising, Bool.and_eq_true, decide_eq_true_eq] at hm
    unfold mdel
    split
    · exact mrising_mono (by omega) (ih hm.2)
    · simp [mrising, hm.1, ih hm.2]

theorem mrising_mput {m : SMap α} {lo k : Nat} (v : α) (hk : lo ≤ k) (hm : mrising lo m = true) :
    mrising lo (mput m k v) = true := by
  induction m generalizing lo with
  | nil => simp [mput, mrising, hk]
  | cons p m ih =>
    obtain ⟨j, w⟩ := p
    simp only [mrising, Bool.and_eq_true, decide_eq_true_eq] at hm
    unfold mput
    split
    · subst_vars; simp [mrising, hk, hm.2]
    · split
      · simp [mrising, hk, hm.2]; omega
      · simp only [mrising, Bool.and_eq_true, decide_eq_true_eq]
        exact ⟨hm.1, ih (by omega) hm.2⟩

variable [DecidableEq α]

@[simp] theorem mget_mset_self (d : α) (m : SMap α) (k : Nat) (v : α) : mget d (mset d m k v) k = v := by
  unfold mset
  split
  · subst_vars; exact mget_mdel_self _ m k
  · exact mget_mput_self d m k v

theorem mget_mset_ne (d : α) (m : SMap α) {k i : Nat} (v : α) (h : i ≠ k) : mget d (mset d m k v) i = mget d m i := by
  unfold mset
  split
  · exact mget_mdel_ne d m h
  · exact mget_mput_ne d m v h

theorem mget_mset (d : α) (m : SMap α) (k i : Nat) (v : α) :
    mget d (mset d m k v) i = if i = k then v else mget d m i := by
  split
  · subst_vars; simp
  · exact mget_mset_ne d m v ‹_›

/-! ## The canonical form -/

theorem mnoDefault_mdel {d : α} {m : SMap α} (k : Nat) (hm : mnoDefault d m = true) : mnoDefault d (mdel m k) = true := by
  induction m with
  | nil => rfl
  | cons p m ih =>
    obtain ⟨j, w⟩ := p
    simp only [mnoDefault, Bool.and_eq_true] at hm
    unfold mdel
    split
    · exact ih hm.2
    · simp only [mnoDefault, Bool.and_eq_true]; exact ⟨hm.1, ih hm.2⟩

theorem mnoDefault_mput {d : α} {m : SMap α} (k : Nat) {v : α} (hv : v ≠ d) (hm : mnoDefault d m = true) :
    mnoDefault d (mput m k v) = true := by
  induction m with
  | nil => simp [mput, mnoDefault, hv]
  | cons p m ih =>
    obtain ⟨j, w⟩ := p
    simp only [mnoDefault, Bool.and_eq_true] at hm
    unfold mput
    split
    · simp [mnoDefault, hv, hm.2]
    · split
      · simp only [mnoDefault, Bool.and_eq_true]; exact ⟨by simp [hv], hm.1, hm.2⟩
      · simp only [mnoDefault, Bool.and_eq_true]; exact ⟨hm.1, ih hm.2⟩

/-- A write of a sparse array keeps the canonical form. -/
theorem mwf_mset {d : α} {m : SMap α} (k : Nat) (v : α) (hm : mwf d m = true) : mwf d (mset d m k v) = true := by
  simp only [mwf, Bool.and_eq_true] at *
  unfold mset
  split
  · exact ⟨mrising_mdel k hm.1, mnoDefault_mdel k hm.2⟩
  · exact ⟨mrising_mput v (Nat.zero_le k) hm.1, mnoDefault_mput k ‹_› hm.2⟩

/-! ## Byte memories -/

@[simp] theorem memByte_memSet_self (m : Memory) (a : Nat) (b : Byte) : memByte (memSet m a b) a = b :=
  mget_mset_self _ m a b

theorem memByte_memSet_ne (m : Memory) {a i : Nat} (b : Byte) (h : i ≠ a) : memByte (memSet m a b) i = memByte m i :=
  mget_mset_ne _ m b h

/-- Writing one byte keeps the canonical form. -/
theorem wf_memSet {m : Memory} (a : Nat) (b : Byte) (hm : Memory.wf m = true) : Memory.wf (memSet m a b) = true :=
  mwf_mset a b hm

/-- Writing bytes keeps the canonical form. -/
theorem wf_memWrite {m : Memory} (a : Nat) (bs : List Byte) (hm : Memory.wf m = true) :
    Memory.wf (memWrite m a bs) = true := by
  induction bs generalizing m a with
  | nil => exact hm
  | cons b bs ih => exact ih (a + 1) (wf_memSet a b hm)

/-- A byte outside the written range reads as before. -/
theorem memByte_memWrite_outside (m : Memory) (a i : Nat) (bs : List Byte) (h : i < a ∨ a + bs.length ≤ i) :
    memByte (memWrite m a bs) i = memByte m i := by
  induction bs generalizing m a with
  | nil => rfl
  | cons b bs ih =>
    simp only [List.length_cons] at h
    show memByte (memWrite (memSet m a b) (a + 1) bs) i = memByte m i
    rw [ih _ _ (by omega), memByte_memSet_ne m b (by omega)]

/-- A byte of the written range reads as written. -/
theorem memByte_memWrite_inside (m : Memory) (a k : Nat) (bs : List Byte) (h : k < bs.length) :
    memByte (memWrite m a bs) (a + k) = bs.getD k 0 := by
  induction bs generalizing m a k with
  | nil => simp at h
  | cons b bs ih =>
    show memByte (memWrite (memSet m a b) (a + 1) bs) (a + k) = _
    cases k with
    | zero => rw [memByte_memWrite_outside _ _ _ _ (by omega)]; simp
    | succ k =>
      have := ih (memSet m a b) (a + 1) k (by simpa using h)
      rw [show a + (k + 1) = a + 1 + k by omega, this]; simp

@[simp] theorem length_memRead (m : Memory) (a n : Nat) : (memRead m a n).length = n := by
  induction n generalizing a with
  | zero => rfl
  | succ n ih => simp [memRead, ih]

/-- A read of the range just written gives the bytes written. -/
theorem memRead_memWrite_self (m : Memory) (a : Nat) (bs : List Byte) : memRead (memWrite m a bs) a bs.length = bs := by
  have h : ∀ n, ∀ a' k, a' = a + k → k + n = bs.length → memRead (memWrite m a bs) a' n = bs.drop k := by
    intro n
    induction n with
    | zero => intro a' k _ hk; simp [memRead, show k = bs.length by omega]
    | succ n ih =>
      intro a' k ha hk
      rw [memRead, ha, memByte_memWrite_inside m a k bs (by omega), ih _ (k + 1) (by omega) (by omega)]
      rw [List.drop_eq_getElem_cons (show k < bs.length by omega)]
      simp [show k < bs.length by omega]
  simpa using h bs.length a 0 rfl (by omega)

end Sys2Proof.Machine
end

