-- ==== Sys2Proof/Laws/State.lean ====
section
/-!
SUPPORT. One lemma for each field of the state and each operation that replaces one part of it: what the field holds
after the operation. They are true by rfl, and later proofs cite them instead of unfolding a record update.
-/
namespace Sys2Proof.Machine

/-! ## setTime -/

@[simp] theorem setTime_pending (x : TimeSt) (s : State) : (setTime x s).pending = s.pending := rfl
@[simp] theorem setTime_freeCtr (x : TimeSt) (s : State) : (setTime x s).freeCtr = s.freeCtr := rfl
@[simp] theorem setTime_now (x : TimeSt) (s : State) : (setTime x s).now = s.now := rfl
@[simp] theorem setTime_engines (x : TimeSt) (s : State) : (setTime x s).engines = s.engines := rfl
@[simp] theorem setTime_ledger (x : TimeSt) (s : State) : (setTime x s).ledger = s.ledger := rfl
@[simp] theorem setTime_whey (x : TimeSt) (s : State) : (setTime x s).whey = s.whey := rfl
@[simp] theorem setTime_regs (x : TimeSt) (s : State) : (setTime x s).regs = s.regs := rfl
@[simp] theorem setTime_lostEntries (x : TimeSt) (s : State) : (setTime x s).lostEntries = s.lostEntries := rfl
@[simp] theorem setTime_bank0 (x : TimeSt) (s : State) : (setTime x s).bank0 = s.bank0 := rfl
@[simp] theorem setTime_bank1 (x : TimeSt) (s : State) : (setTime x s).bank1 = s.bank1 := rfl
@[simp] theorem setTime_epoch (x : TimeSt) (s : State) : (setTime x s).epoch = s.epoch := rfl
@[simp] theorem setTime_vat (x : TimeSt) (s : State) : (setTime x s).vat = s.vat := rfl
@[simp] theorem setTime_press (x : TimeSt) (s : State) : (setTime x s).press = s.press := rfl
@[simp] theorem setTime_descs (x : TimeSt) (s : State) : (setTime x s).descs = s.descs := rfl
@[simp] theorem setTime_cave (x : TimeSt) (s : State) : (setTime x s).cave = s.cave := rfl
@[simp] theorem setTime_time (x : TimeSt) (s : State) : (setTime x s).time = x := rfl
@[simp] theorem setTime_triad (x : TimeSt) (s : State) : (setTime x s).triad = s.triad := rfl
@[simp] theorem setTime_scraper (x : TimeSt) (s : State) : (setTime x s).scraper = s.scraper := rfl
@[simp] theorem setTime_qm (x : TimeSt) (s : State) : (setTime x s).qm = s.qm := rfl
@[simp] theorem setTime_sched (x : TimeSt) (s : State) : (setTime x s).sched = s.sched := rfl
@[simp] theorem setTime_roll (x : TimeSt) (s : State) : (setTime x s).roll = s.roll := rfl
@[simp] theorem setTime_pipes (x : TimeSt) (s : State) : (setTime x s).pipes = s.pipes := rfl
@[simp] theorem setTime_macs (x : TimeSt) (s : State) : (setTime x s).macs = s.macs := rfl
@[simp] theorem setTime_enqPath (x : TimeSt) (s : State) : (setTime x s).enqPath = s.enqPath := rfl
@[simp] theorem setTime_portStats (x : TimeSt) (s : State) : (setTime x s).portStats = s.portStats := rfl
@[simp] theorem setTime_out (x : TimeSt) (s : State) : (setTime x s).out = s.out := rfl
@[simp] theorem setTime_mirror (x : TimeSt) (s : State) : (setTime x s).mirror = s.mirror := rfl
@[simp] theorem setTime_tree (x : TimeSt) (s : State) : (setTime x s).tree = s.tree := rfl
@[simp] theorem setTime_l2 (x : TimeSt) (s : State) : (setTime x s).l2 = s.l2 := rfl
@[simp] theorem setTime_routes (x : TimeSt) (s : State) : (setTime x s).routes = s.routes := rfl
@[simp] theorem setTime_flows (x : TimeSt) (s : State) : (setTime x s).flows = s.flows := rfl
@[simp] theorem setTime_power (x : TimeSt) (s : State) : (setTime x s).power = s.power := rfl
@[simp] theorem setTime_lanes (x : TimeSt) (s : State) : (setTime x s).lanes = s.lanes := rfl
@[simp] theorem setTime_tilePll (x : TimeSt) (s : State) : (setTime x s).tilePll = s.tilePll := rfl
@[simp] theorem setTime_fabric (x : TimeSt) (s : State) : (setTime x s).fabric = s.fabric := rfl
@[simp] theorem setTime_perf (x : TimeSt) (s : State) : (setTime x s).perf = s.perf := rfl
@[simp] theorem setTime_i3c (x : TimeSt) (s : State) : (setTime x s).i3c = s.i3c := rfl
@[simp] theorem setTime_ctl (x : TimeSt) (s : State) : (setTime x s).ctl = s.ctl := rfl
@[simp] theorem setTime_flash (x : TimeSt) (s : State) : (setTime x s).flash = s.flash := rfl
@[simp] theorem setTime_boot (x : TimeSt) (s : State) : (setTime x s).boot = s.boot := rfl
@[simp] theorem setTime_upd (x : TimeSt) (s : State) : (setTime x s).upd = s.upd := rfl
@[simp] theorem setTime_sensor (x : TimeSt) (s : State) : (setTime x s).sensor = s.sensor := rfl

/-! ## setPerf -/

@[simp] theorem setPerf_pending (x : PerfSt) (s : State) : (setPerf x s).pending = s.pending := rfl
@[simp] theorem setPerf_freeCtr (x : PerfSt) (s : State) : (setPerf x s).freeCtr = s.freeCtr := rfl
@[simp] theorem setPerf_now (x : PerfSt) (s : State) : (setPerf x s).now = s.now := rfl
@[simp] theorem setPerf_engines (x : PerfSt) (s : State) : (setPerf x s).engines = s.engines := rfl
@[simp] theorem setPerf_ledger (x : PerfSt) (s : State) : (setPerf x s).ledger = s.ledger := rfl
@[simp] theorem setPerf_whey (x : PerfSt) (s : State) : (setPerf x s).whey = s.whey := rfl
@[simp] theorem setPerf_regs (x : PerfSt) (s : State) : (setPerf x s).regs = s.regs := rfl
@[simp] theorem setPerf_lostEntries (x : PerfSt) (s : State) : (setPerf x s).lostEntries = s.lostEntries := rfl
@[simp] theorem setPerf_bank0 (x : PerfSt) (s : State) : (setPerf x s).bank0 = s.bank0 := rfl
@[simp] theorem setPerf_bank1 (x : PerfSt) (s : State) : (setPerf x s).bank1 = s.bank1 := rfl
@[simp] theorem setPerf_epoch (x : PerfSt) (s : State) : (setPerf x s).epoch = s.epoch := rfl
@[simp] theorem setPerf_vat (x : PerfSt) (s : State) : (setPerf x s).vat = s.vat := rfl
@[simp] theorem setPerf_press (x : PerfSt) (s : State) : (setPerf x s).press = s.press := rfl
@[simp] theorem setPerf_descs (x : PerfSt) (s : State) : (setPerf x s).descs = s.descs := rfl
@[simp] theorem setPerf_cave (x : PerfSt) (s : State) : (setPerf x s).cave = s.cave := rfl
@[simp] theorem setPerf_time (x : PerfSt) (s : State) : (setPerf x s).time = s.time := rfl
@[simp] theorem setPerf_triad (x : PerfSt) (s : State) : (setPerf x s).triad = s.triad := rfl
@[simp] theorem setPerf_scraper (x : PerfSt) (s : State) : (setPerf x s).scraper = s.scraper := rfl
@[simp] theorem setPerf_qm (x : PerfSt) (s : State) : (setPerf x s).qm = s.qm := rfl
@[simp] theorem setPerf_sched (x : PerfSt) (s : State) : (setPerf x s).sched = s.sched := rfl
@[simp] theorem setPerf_roll (x : PerfSt) (s : State) : (setPerf x s).roll = s.roll := rfl
@[simp] theorem setPerf_pipes (x : PerfSt) (s : State) : (setPerf x s).pipes = s.pipes := rfl
@[simp] theorem setPerf_macs (x : PerfSt) (s : State) : (setPerf x s).macs = s.macs := rfl
@[simp] theorem setPerf_enqPath (x : PerfSt) (s : State) : (setPerf x s).enqPath = s.enqPath := rfl
@[simp] theorem setPerf_portStats (x : PerfSt) (s : State) : (setPerf x s).portStats = s.portStats := rfl
@[simp] theorem setPerf_out (x : PerfSt) (s : State) : (setPerf x s).out = s.out := rfl
@[simp] theorem setPerf_mirror (x : PerfSt) (s : State) : (setPerf x s).mirror = s.mirror := rfl
@[simp] theorem setPerf_tree (x : PerfSt) (s : State) : (setPerf x s).tree = s.tree := rfl
@[simp] theorem setPerf_l2 (x : PerfSt) (s : State) : (setPerf x s).l2 = s.l2 := rfl
@[simp] theorem setPerf_routes (x : PerfSt) (s : State) : (setPerf x s).routes = s.routes := rfl
@[simp] theorem setPerf_flows (x : PerfSt) (s : State) : (setPerf x s).flows = s.flows := rfl
@[simp] theorem setPerf_power (x : PerfSt) (s : State) : (setPerf x s).power = s.power := rfl
@[simp] theorem setPerf_lanes (x : PerfSt) (s : State) : (setPerf x s).lanes = s.lanes := rfl
@[simp] theorem setPerf_tilePll (x : PerfSt) (s : State) : (setPerf x s).tilePll = s.tilePll := rfl
@[simp] theorem setPerf_fabric (x : PerfSt) (s : State) : (setPerf x s).fabric = s.fabric := rfl
@[simp] theorem setPerf_perf (x : PerfSt) (s : State) : (setPerf x s).perf = x := rfl
@[simp] theorem setPerf_i3c (x : PerfSt) (s : State) : (setPerf x s).i3c = s.i3c := rfl
@[simp] theorem setPerf_ctl (x : PerfSt) (s : State) : (setPerf x s).ctl = s.ctl := rfl
@[simp] theorem setPerf_flash (x : PerfSt) (s : State) : (setPerf x s).flash = s.flash := rfl
@[simp] theorem setPerf_boot (x : PerfSt) (s : State) : (setPerf x s).boot = s.boot := rfl
@[simp] theorem setPerf_upd (x : PerfSt) (s : State) : (setPerf x s).upd = s.upd := rfl
@[simp] theorem setPerf_sensor (x : PerfSt) (s : State) : (setPerf x s).sensor = s.sensor := rfl

/-! ## setI3c -/

@[simp] theorem setI3c_pending (x : I3cSt) (s : State) : (setI3c x s).pending = s.pending := rfl
@[simp] theorem setI3c_freeCtr (x : I3cSt) (s : State) : (setI3c x s).freeCtr = s.freeCtr := rfl
@[simp] theorem setI3c_now (x : I3cSt) (s : State) : (setI3c x s).now = s.now := rfl
@[simp] theorem setI3c_engines (x : I3cSt) (s : State) : (setI3c x s).engines = s.engines := rfl
@[simp] theorem setI3c_ledger (x : I3cSt) (s : State) : (setI3c x s).ledger = s.ledger := rfl
@[simp] theorem setI3c_whey (x : I3cSt) (s : State) : (setI3c x s).whey = s.whey := rfl
@[simp] theorem setI3c_regs (x : I3cSt) (s : State) : (setI3c x s).regs = s.regs := rfl
@[simp] theorem setI3c_lostEntries (x : I3cSt) (s : State) : (setI3c x s).lostEntries = s.lostEntries := rfl
@[simp] theorem setI3c_bank0 (x : I3cSt) (s : State) : (setI3c x s).bank0 = s.bank0 := rfl
@[simp] theorem setI3c_bank1 (x : I3cSt) (s : State) : (setI3c x s).bank1 = s.bank1 := rfl
@[simp] theorem setI3c_epoch (x : I3cSt) (s : State) : (setI3c x s).epoch = s.epoch := rfl
@[simp] theorem setI3c_vat (x : I3cSt) (s : State) : (setI3c x s).vat = s.vat := rfl
@[simp] theorem setI3c_press (x : I3cSt) (s : State) : (setI3c x s).press = s.press := rfl
@[simp] theorem setI3c_descs (x : I3cSt) (s : State) : (setI3c x s).descs = s.descs := rfl
@[simp] theorem setI3c_cave (x : I3cSt) (s : State) : (setI3c x s).cave = s.cave := rfl
@[simp] theorem setI3c_time (x : I3cSt) (s : State) : (setI3c x s).time = s.time := rfl
@[simp] theorem setI3c_triad (x : I3cSt) (s : State) : (setI3c x s).triad = s.triad := rfl
@[simp] theorem setI3c_scraper (x : I3cSt) (s : State) : (setI3c x s).scraper = s.scraper := rfl
@[simp] theorem setI3c_qm (x : I3cSt) (s : State) : (setI3c x s).qm = s.qm := rfl
@[simp] theorem setI3c_sched (x : I3cSt) (s : State) : (setI3c x s).sched = s.sched := rfl
@[simp] theorem setI3c_roll (x : I3cSt) (s : State) : (setI3c x s).roll = s.roll := rfl
@[simp] theorem setI3c_pipes (x : I3cSt) (s : State) : (setI3c x s).pipes = s.pipes := rfl
@[simp] theorem setI3c_macs (x : I3cSt) (s : State) : (setI3c x s).macs = s.macs := rfl
@[simp] theorem setI3c_enqPath (x : I3cSt) (s : State) : (setI3c x s).enqPath = s.enqPath := rfl
@[simp] theorem setI3c_portStats (x : I3cSt) (s : State) : (setI3c x s).portStats = s.portStats := rfl
@[simp] theorem setI3c_out (x : I3cSt) (s : State) : (setI3c x s).out = s.out := rfl
@[simp] theorem setI3c_mirror (x : I3cSt) (s : State) : (setI3c x s).mirror = s.mirror := rfl
@[simp] theorem setI3c_tree (x : I3cSt) (s : State) : (setI3c x s).tree = s.tree := rfl
@[simp] theorem setI3c_l2 (x : I3cSt) (s : State) : (setI3c x s).l2 = s.l2 := rfl
@[simp] theorem setI3c_routes (x : I3cSt) (s : State) : (setI3c x s).routes = s.routes := rfl
@[simp] theorem setI3c_flows (x : I3cSt) (s : State) : (setI3c x s).flows = s.flows := rfl
@[simp] theorem setI3c_power (x : I3cSt) (s : State) : (setI3c x s).power = s.power := rfl
@[simp] theorem setI3c_lanes (x : I3cSt) (s : State) : (setI3c x s).lanes = s.lanes := rfl
@[simp] theorem setI3c_tilePll (x : I3cSt) (s : State) : (setI3c x s).tilePll = s.tilePll := rfl
@[simp] theorem setI3c_fabric (x : I3cSt) (s : State) : (setI3c x s).fabric = s.fabric := rfl
@[simp] theorem setI3c_perf (x : I3cSt) (s : State) : (setI3c x s).perf = s.perf := rfl
@[simp] theorem setI3c_i3c (x : I3cSt) (s : State) : (setI3c x s).i3c = x := rfl
@[simp] theorem setI3c_ctl (x : I3cSt) (s : State) : (setI3c x s).ctl = s.ctl := rfl
@[simp] theorem setI3c_flash (x : I3cSt) (s : State) : (setI3c x s).flash = s.flash := rfl
@[simp] theorem setI3c_boot (x : I3cSt) (s : State) : (setI3c x s).boot = s.boot := rfl
@[simp] theorem setI3c_upd (x : I3cSt) (s : State) : (setI3c x s).upd = s.upd := rfl
@[simp] theorem setI3c_sensor (x : I3cSt) (s : State) : (setI3c x s).sensor = s.sensor := rfl

/-! ## setBoot -/

@[simp] theorem setBoot_pending (x : BootSt) (s : State) : (setBoot x s).pending = s.pending := rfl
@[simp] theorem setBoot_freeCtr (x : BootSt) (s : State) : (setBoot x s).freeCtr = s.freeCtr := rfl
@[simp] theorem setBoot_now (x : BootSt) (s : State) : (setBoot x s).now = s.now := rfl
@[simp] theorem setBoot_engines (x : BootSt) (s : State) : (setBoot x s).engines = s.engines := rfl
@[simp] theorem setBoot_ledger (x : BootSt) (s : State) : (setBoot x s).ledger = s.ledger := rfl
@[simp] theorem setBoot_whey (x : BootSt) (s : State) : (setBoot x s).whey = s.whey := rfl
@[simp] theorem setBoot_regs (x : BootSt) (s : State) : (setBoot x s).regs = s.regs := rfl
@[simp] theorem setBoot_lostEntries (x : BootSt) (s : State) : (setBoot x s).lostEntries = s.lostEntries := rfl
@[simp] theorem setBoot_bank0 (x : BootSt) (s : State) : (setBoot x s).bank0 = s.bank0 := rfl
@[simp] theorem setBoot_bank1 (x : BootSt) (s : State) : (setBoot x s).bank1 = s.bank1 := rfl
@[simp] theorem setBoot_epoch (x : BootSt) (s : State) : (setBoot x s).epoch = s.epoch := rfl
@[simp] theorem setBoot_vat (x : BootSt) (s : State) : (setBoot x s).vat = s.vat := rfl
@[simp] theorem setBoot_press (x : BootSt) (s : State) : (setBoot x s).press = s.press := rfl
@[simp] theorem setBoot_descs (x : BootSt) (s : State) : (setBoot x s).descs = s.descs := rfl
@[simp] theorem setBoot_cave (x : BootSt) (s : State) : (setBoot x s).cave = s.cave := rfl
@[simp] theorem setBoot_time (x : BootSt) (s : State) : (setBoot x s).time = s.time := rfl
@[simp] theorem setBoot_triad (x : BootSt) (s : State) : (setBoot x s).triad = s.triad := rfl
@[simp] theorem setBoot_scraper (x : BootSt) (s : State) : (setBoot x s).scraper = s.scraper := rfl
@[simp] theorem setBoot_qm (x : BootSt) (s : State) : (setBoot x s).qm = s.qm := rfl
@[simp] theorem setBoot_sched (x : BootSt) (s : State) : (setBoot x s).sched = s.sched := rfl
@[simp] theorem setBoot_roll (x : BootSt) (s : State) : (setBoot x s).roll = s.roll := rfl
@[simp] theorem setBoot_pipes (x : BootSt) (s : State) : (setBoot x s).pipes = s.pipes := rfl
@[simp] theorem setBoot_macs (x : BootSt) (s : State) : (setBoot x s).macs = s.macs := rfl
@[simp] theorem setBoot_enqPath (x : BootSt) (s : State) : (setBoot x s).enqPath = s.enqPath := rfl
@[simp] theorem setBoot_portStats (x : BootSt) (s : State) : (setBoot x s).portStats = s.portStats := rfl
@[simp] theorem setBoot_out (x : BootSt) (s : State) : (setBoot x s).out = s.out := rfl
@[simp] theorem setBoot_mirror (x : BootSt) (s : State) : (setBoot x s).mirror = s.mirror := rfl
@[simp] theorem setBoot_tree (x : BootSt) (s : State) : (setBoot x s).tree = s.tree := rfl
@[simp] theorem setBoot_l2 (x : BootSt) (s : State) : (setBoot x s).l2 = s.l2 := rfl
@[simp] theorem setBoot_routes (x : BootSt) (s : State) : (setBoot x s).routes = s.routes := rfl
@[simp] theorem setBoot_flows (x : BootSt) (s : State) : (setBoot x s).flows = s.flows := rfl
@[simp] theorem setBoot_power (x : BootSt) (s : State) : (setBoot x s).power = s.power := rfl
@[simp] theorem setBoot_lanes (x : BootSt) (s : State) : (setBoot x s).lanes = s.lanes := rfl
@[simp] theorem setBoot_tilePll (x : BootSt) (s : State) : (setBoot x s).tilePll = s.tilePll := rfl
@[simp] theorem setBoot_fabric (x : BootSt) (s : State) : (setBoot x s).fabric = s.fabric := rfl
@[simp] theorem setBoot_perf (x : BootSt) (s : State) : (setBoot x s).perf = s.perf := rfl
@[simp] theorem setBoot_i3c (x : BootSt) (s : State) : (setBoot x s).i3c = s.i3c := rfl
@[simp] theorem setBoot_ctl (x : BootSt) (s : State) : (setBoot x s).ctl = s.ctl := rfl
@[simp] theorem setBoot_flash (x : BootSt) (s : State) : (setBoot x s).flash = s.flash := rfl
@[simp] theorem setBoot_boot (x : BootSt) (s : State) : (setBoot x s).boot = x := rfl
@[simp] theorem setBoot_upd (x : BootSt) (s : State) : (setBoot x s).upd = s.upd := rfl
@[simp] theorem setBoot_sensor (x : BootSt) (s : State) : (setBoot x s).sensor = s.sensor := rfl

/-! ## setUpd -/

@[simp] theorem setUpd_pending (x : UpdSt) (s : State) : (setUpd x s).pending = s.pending := rfl
@[simp] theorem setUpd_freeCtr (x : UpdSt) (s : State) : (setUpd x s).freeCtr = s.freeCtr := rfl
@[simp] theorem setUpd_now (x : UpdSt) (s : State) : (setUpd x s).now = s.now := rfl
@[simp] theorem setUpd_engines (x : UpdSt) (s : State) : (setUpd x s).engines = s.engines := rfl
@[simp] theorem setUpd_ledger (x : UpdSt) (s : State) : (setUpd x s).ledger = s.ledger := rfl
@[simp] theorem setUpd_whey (x : UpdSt) (s : State) : (setUpd x s).whey = s.whey := rfl
@[simp] theorem setUpd_regs (x : UpdSt) (s : State) : (setUpd x s).regs = s.regs := rfl
@[simp] theorem setUpd_lostEntries (x : UpdSt) (s : State) : (setUpd x s).lostEntries = s.lostEntries := rfl
@[simp] theorem setUpd_bank0 (x : UpdSt) (s : State) : (setUpd x s).bank0 = s.bank0 := rfl
@[simp] theorem setUpd_bank1 (x : UpdSt) (s : State) : (setUpd x s).bank1 = s.bank1 := rfl
@[simp] theorem setUpd_epoch (x : UpdSt) (s : State) : (setUpd x s).epoch = s.epoch := rfl
@[simp] theorem setUpd_vat (x : UpdSt) (s : State) : (setUpd x s).vat = s.vat := rfl
@[simp] theorem setUpd_press (x : UpdSt) (s : State) : (setUpd x s).press = s.press := rfl
@[simp] theorem setUpd_descs (x : UpdSt) (s : State) : (setUpd x s).descs = s.descs := rfl
@[simp] theorem setUpd_cave (x : UpdSt) (s : State) : (setUpd x s).cave = s.cave := rfl
@[simp] theorem setUpd_time (x : UpdSt) (s : State) : (setUpd x s).time = s.time := rfl
@[simp] theorem setUpd_triad (x : UpdSt) (s : State) : (setUpd x s).triad = s.triad := rfl
@[simp] theorem setUpd_scraper (x : UpdSt) (s : State) : (setUpd x s).scraper = s.scraper := rfl
@[simp] theorem setUpd_qm (x : UpdSt) (s : State) : (setUpd x s).qm = s.qm := rfl
@[simp] theorem setUpd_sched (x : UpdSt) (s : State) : (setUpd x s).sched = s.sched := rfl
@[simp] theorem setUpd_roll (x : UpdSt) (s : State) : (setUpd x s).roll = s.roll := rfl
@[simp] theorem setUpd_pipes (x : UpdSt) (s : State) : (setUpd x s).pipes = s.pipes := rfl
@[simp] theorem setUpd_macs (x : UpdSt) (s : State) : (setUpd x s).macs = s.macs := rfl
@[simp] theorem setUpd_enqPath (x : UpdSt) (s : State) : (setUpd x s).enqPath = s.enqPath := rfl
@[simp] theorem setUpd_portStats (x : UpdSt) (s : State) : (setUpd x s).portStats = s.portStats := rfl
@[simp] theorem setUpd_out (x : UpdSt) (s : State) : (setUpd x s).out = s.out := rfl
@[simp] theorem setUpd_mirror (x : UpdSt) (s : State) : (setUpd x s).mirror = s.mirror := rfl
@[simp] theorem setUpd_tree (x : UpdSt) (s : State) : (setUpd x s).tree = s.tree := rfl
@[simp] theorem setUpd_l2 (x : UpdSt) (s : State) : (setUpd x s).l2 = s.l2 := rfl
@[simp] theorem setUpd_routes (x : UpdSt) (s : State) : (setUpd x s).routes = s.routes := rfl
@[simp] theorem setUpd_flows (x : UpdSt) (s : State) : (setUpd x s).flows = s.flows := rfl
@[simp] theorem setUpd_power (x : UpdSt) (s : State) : (setUpd x s).power = s.power := rfl
@[simp] theorem setUpd_lanes (x : UpdSt) (s : State) : (setUpd x s).lanes = s.lanes := rfl
@[simp] theorem setUpd_tilePll (x : UpdSt) (s : State) : (setUpd x s).tilePll = s.tilePll := rfl
@[simp] theorem setUpd_fabric (x : UpdSt) (s : State) : (setUpd x s).fabric = s.fabric := rfl
@[simp] theorem setUpd_perf (x : UpdSt) (s : State) : (setUpd x s).perf = s.perf := rfl
@[simp] theorem setUpd_i3c (x : UpdSt) (s : State) : (setUpd x s).i3c = s.i3c := rfl
@[simp] theorem setUpd_ctl (x : UpdSt) (s : State) : (setUpd x s).ctl = s.ctl := rfl
@[simp] theorem setUpd_flash (x : UpdSt) (s : State) : (setUpd x s).flash = s.flash := rfl
@[simp] theorem setUpd_boot (x : UpdSt) (s : State) : (setUpd x s).boot = s.boot := rfl
@[simp] theorem setUpd_upd (x : UpdSt) (s : State) : (setUpd x s).upd = x := rfl
@[simp] theorem setUpd_sensor (x : UpdSt) (s : State) : (setUpd x s).sensor = s.sensor := rfl

/-! ## setCtl -/

@[simp] theorem setCtl_pending (x : CtlPortSt) (s : State) : (setCtl x s).pending = s.pending := rfl
@[simp] theorem setCtl_freeCtr (x : CtlPortSt) (s : State) : (setCtl x s).freeCtr = s.freeCtr := rfl
@[simp] theorem setCtl_now (x : CtlPortSt) (s : State) : (setCtl x s).now = s.now := rfl
@[simp] theorem setCtl_engines (x : CtlPortSt) (s : State) : (setCtl x s).engines = s.engines := rfl
@[simp] theorem setCtl_ledger (x : CtlPortSt) (s : State) : (setCtl x s).ledger = s.ledger := rfl
@[simp] theorem setCtl_whey (x : CtlPortSt) (s : State) : (setCtl x s).whey = s.whey := rfl
@[simp] theorem setCtl_regs (x : CtlPortSt) (s : State) : (setCtl x s).regs = s.regs := rfl
@[simp] theorem setCtl_lostEntries (x : CtlPortSt) (s : State) : (setCtl x s).lostEntries = s.lostEntries := rfl
@[simp] theorem setCtl_bank0 (x : CtlPortSt) (s : State) : (setCtl x s).bank0 = s.bank0 := rfl
@[simp] theorem setCtl_bank1 (x : CtlPortSt) (s : State) : (setCtl x s).bank1 = s.bank1 := rfl
@[simp] theorem setCtl_epoch (x : CtlPortSt) (s : State) : (setCtl x s).epoch = s.epoch := rfl
@[simp] theorem setCtl_vat (x : CtlPortSt) (s : State) : (setCtl x s).vat = s.vat := rfl
@[simp] theorem setCtl_press (x : CtlPortSt) (s : State) : (setCtl x s).press = s.press := rfl
@[simp] theorem setCtl_descs (x : CtlPortSt) (s : State) : (setCtl x s).descs = s.descs := rfl
@[simp] theorem setCtl_cave (x : CtlPortSt) (s : State) : (setCtl x s).cave = s.cave := rfl
@[simp] theorem setCtl_time (x : CtlPortSt) (s : State) : (setCtl x s).time = s.time := rfl
@[simp] theorem setCtl_triad (x : CtlPortSt) (s : State) : (setCtl x s).triad = s.triad := rfl
@[simp] theorem setCtl_scraper (x : CtlPortSt) (s : State) : (setCtl x s).scraper = s.scraper := rfl
@[simp] theorem setCtl_qm (x : CtlPortSt) (s : State) : (setCtl x s).qm = s.qm := rfl
@[simp] theorem setCtl_sched (x : CtlPortSt) (s : State) : (setCtl x s).sched = s.sched := rfl
@[simp] theorem setCtl_roll (x : CtlPortSt) (s : State) : (setCtl x s).roll = s.roll := rfl
@[simp] theorem setCtl_pipes (x : CtlPortSt) (s : State) : (setCtl x s).pipes = s.pipes := rfl
@[simp] theorem setCtl_macs (x : CtlPortSt) (s : State) : (setCtl x s).macs = s.macs := rfl
@[simp] theorem setCtl_enqPath (x : CtlPortSt) (s : State) : (setCtl x s).enqPath = s.enqPath := rfl
@[simp] theorem setCtl_portStats (x : CtlPortSt) (s : State) : (setCtl x s).portStats = s.portStats := rfl
@[simp] theorem setCtl_out (x : CtlPortSt) (s : State) : (setCtl x s).out = s.out := rfl
@[simp] theorem setCtl_mirror (x : CtlPortSt) (s : State) : (setCtl x s).mirror = s.mirror := rfl
@[simp] theorem setCtl_tree (x : CtlPortSt) (s : State) : (setCtl x s).tree = s.tree := rfl
@[simp] theorem setCtl_l2 (x : CtlPortSt) (s : State) : (setCtl x s).l2 = s.l2 := rfl
@[simp] theorem setCtl_routes (x : CtlPortSt) (s : State) : (setCtl x s).routes = s.routes := rfl
@[simp] theorem setCtl_flows (x : CtlPortSt) (s : State) : (setCtl x s).flows = s.flows := rfl
@[simp] theorem setCtl_power (x : CtlPortSt) (s : State) : (setCtl x s).power = s.power := rfl
@[simp] theorem setCtl_lanes (x : CtlPortSt) (s : State) : (setCtl x s).lanes = s.lanes := rfl
@[simp] theorem setCtl_tilePll (x : CtlPortSt) (s : State) : (setCtl x s).tilePll = s.tilePll := rfl
@[simp] theorem setCtl_fabric (x : CtlPortSt) (s : State) : (setCtl x s).fabric = s.fabric := rfl
@[simp] theorem setCtl_perf (x : CtlPortSt) (s : State) : (setCtl x s).perf = s.perf := rfl
@[simp] theorem setCtl_i3c (x : CtlPortSt) (s : State) : (setCtl x s).i3c = s.i3c := rfl
@[simp] theorem setCtl_ctl (x : CtlPortSt) (s : State) : (setCtl x s).ctl = x := rfl
@[simp] theorem setCtl_flash (x : CtlPortSt) (s : State) : (setCtl x s).flash = s.flash := rfl
@[simp] theorem setCtl_boot (x : CtlPortSt) (s : State) : (setCtl x s).boot = s.boot := rfl
@[simp] theorem setCtl_upd (x : CtlPortSt) (s : State) : (setCtl x s).upd = s.upd := rfl
@[simp] theorem setCtl_sensor (x : CtlPortSt) (s : State) : (setCtl x s).sensor = s.sensor := rfl

/-! ## setPipe -/

@[simp] theorem setPipe_pending (n : Nat) (x : PipeSt) (s : State) : (setPipe n x s).pending = s.pending := rfl
@[simp] theorem setPipe_freeCtr (n : Nat) (x : PipeSt) (s : State) : (setPipe n x s).freeCtr = s.freeCtr := rfl
@[simp] theorem setPipe_now (n : Nat) (x : PipeSt) (s : State) : (setPipe n x s).now = s.now := rfl
@[simp] theorem setPipe_engines (n : Nat) (x : PipeSt) (s : State) : (setPipe n x s).engines = s.engines := rfl
@[simp] theorem setPipe_ledger (n : Nat) (x : PipeSt) (s : State) : (setPipe n x s).ledger = s.ledger := rfl
@[simp] theorem setPipe_whey (n : Nat) (x : PipeSt) (s : State) : (setPipe n x s).whey = s.whey := rfl
@[simp] theorem setPipe_regs (n : Nat) (x : PipeSt) (s : State) : (setPipe n x s).regs = s.regs := rfl
@[simp] theorem setPipe_lostEntries (n : Nat) (x : PipeSt) (s : State) : (setPipe n x s).lostEntries = s.lostEntries := rfl
@[simp] theorem setPipe_bank0 (n : Nat) (x : PipeSt) (s : State) : (setPipe n x s).bank0 = s.bank0 := rfl
@[simp] theorem setPipe_bank1 (n : Nat) (x : PipeSt) (s : State) : (setPipe n x s).bank1 = s.bank1 := rfl
@[simp] theorem setPipe_epoch (n : Nat) (x : PipeSt) (s : State) : (setPipe n x s).epoch = s.epoch := rfl
@[simp] theorem setPipe_vat (n : Nat) (x : PipeSt) (s : State) : (setPipe n x s).vat = s.vat := rfl
@[simp] theorem setPipe_press (n : Nat) (x : PipeSt) (s : State) : (setPipe n x s).press = s.press := rfl
@[simp] theorem setPipe_descs (n : Nat) (x : PipeSt) (s : State) : (setPipe n x s).descs = s.descs := rfl
@[simp] theorem setPipe_cave (n : Nat) (x : PipeSt) (s : State) : (setPipe n x s).cave = s.cave := rfl
@[simp] theorem setPipe_time (n : Nat) (x : PipeSt) (s : State) : (setPipe n x s).time = s.time := rfl
@[simp] theorem setPipe_triad (n : Nat) (x : PipeSt) (s : State) : (setPipe n x s).triad = s.triad := rfl
@[simp] theorem setPipe_scraper (n : Nat) (x : PipeSt) (s : State) : (setPipe n x s).scraper = s.scraper := rfl
@[simp] theorem setPipe_qm (n : Nat) (x : PipeSt) (s : State) : (setPipe n x s).qm = s.qm := rfl
@[simp] theorem setPipe_sched (n : Nat) (x : PipeSt) (s : State) : (setPipe n x s).sched = s.sched := rfl
@[simp] theorem setPipe_roll (n : Nat) (x : PipeSt) (s : State) : (setPipe n x s).roll = s.roll := rfl
@[simp] theorem setPipe_pipes (n : Nat) (x : PipeSt) (s : State) : (setPipe n x s).pipes = mset {} s.pipes n x := rfl
@[simp] theorem setPipe_macs (n : Nat) (x : PipeSt) (s : State) : (setPipe n x s).macs = s.macs := rfl
@[simp] theorem setPipe_enqPath (n : Nat) (x : PipeSt) (s : State) : (setPipe n x s).enqPath = s.enqPath := rfl
@[simp] theorem setPipe_portStats (n : Nat) (x : PipeSt) (s : State) : (setPipe n x s).portStats = s.portStats := rfl
@[simp] theorem setPipe_out (n : Nat) (x : PipeSt) (s : State) : (setPipe n x s).out = s.out := rfl
@[simp] theorem setPipe_mirror (n : Nat) (x : PipeSt) (s : State) : (setPipe n x s).mirror = s.mirror := rfl
@[simp] theorem setPipe_tree (n : Nat) (x : PipeSt) (s : State) : (setPipe n x s).tree = s.tree := rfl
@[simp] theorem setPipe_l2 (n : Nat) (x : PipeSt) (s : State) : (setPipe n x s).l2 = s.l2 := rfl
@[simp] theorem setPipe_routes (n : Nat) (x : PipeSt) (s : State) : (setPipe n x s).routes = s.routes := rfl
@[simp] theorem setPipe_flows (n : Nat) (x : PipeSt) (s : State) : (setPipe n x s).flows = s.flows := rfl
@[simp] theorem setPipe_power (n : Nat) (x : PipeSt) (s : State) : (setPipe n x s).power = s.power := rfl
@[simp] theorem setPipe_lanes (n : Nat) (x : PipeSt) (s : State) : (setPipe n x s).lanes = s.lanes := rfl
@[simp] theorem setPipe_tilePll (n : Nat) (x : PipeSt) (s : State) : (setPipe n x s).tilePll = s.tilePll := rfl
@[simp] theorem setPipe_fabric (n : Nat) (x : PipeSt) (s : State) : (setPipe n x s).fabric = s.fabric := rfl
@[simp] theorem setPipe_perf (n : Nat) (x : PipeSt) (s : State) : (setPipe n x s).perf = s.perf := rfl
@[simp] theorem setPipe_i3c (n : Nat) (x : PipeSt) (s : State) : (setPipe n x s).i3c = s.i3c := rfl
@[simp] theorem setPipe_ctl (n : Nat) (x : PipeSt) (s : State) : (setPipe n x s).ctl = s.ctl := rfl
@[simp] theorem setPipe_flash (n : Nat) (x : PipeSt) (s : State) : (setPipe n x s).flash = s.flash := rfl
@[simp] theorem setPipe_boot (n : Nat) (x : PipeSt) (s : State) : (setPipe n x s).boot = s.boot := rfl
@[simp] theorem setPipe_upd (n : Nat) (x : PipeSt) (s : State) : (setPipe n x s).upd = s.upd := rfl
@[simp] theorem setPipe_sensor (n : Nat) (x : PipeSt) (s : State) : (setPipe n x s).sensor = s.sensor := rfl

/-! ## setMac -/

@[simp] theorem setMac_pending (n : Nat) (x : MacSt) (s : State) : (setMac n x s).pending = s.pending := rfl
@[simp] theorem setMac_freeCtr (n : Nat) (x : MacSt) (s : State) : (setMac n x s).freeCtr = s.freeCtr := rfl
@[simp] theorem setMac_now (n : Nat) (x : MacSt) (s : State) : (setMac n x s).now = s.now := rfl
@[simp] theorem setMac_engines (n : Nat) (x : MacSt) (s : State) : (setMac n x s).engines = s.engines := rfl
@[simp] theorem setMac_ledger (n : Nat) (x : MacSt) (s : State) : (setMac n x s).ledger = s.ledger := rfl
@[simp] theorem setMac_whey (n : Nat) (x : MacSt) (s : State) : (setMac n x s).whey = s.whey := rfl
@[simp] theorem setMac_regs (n : Nat) (x : MacSt) (s : State) : (setMac n x s).regs = s.regs := rfl
@[simp] theorem setMac_lostEntries (n : Nat) (x : MacSt) (s : State) : (setMac n x s).lostEntries = s.lostEntries := rfl
@[simp] theorem setMac_bank0 (n : Nat) (x : MacSt) (s : State) : (setMac n x s).bank0 = s.bank0 := rfl
@[simp] theorem setMac_bank1 (n : Nat) (x : MacSt) (s : State) : (setMac n x s).bank1 = s.bank1 := rfl
@[simp] theorem setMac_epoch (n : Nat) (x : MacSt) (s : State) : (setMac n x s).epoch = s.epoch := rfl
@[simp] theorem setMac_vat (n : Nat) (x : MacSt) (s : State) : (setMac n x s).vat = s.vat := rfl
@[simp] theorem setMac_press (n : Nat) (x : MacSt) (s : State) : (setMac n x s).press = s.press := rfl
@[simp] theorem setMac_descs (n : Nat) (x : MacSt) (s : State) : (setMac n x s).descs = s.descs := rfl
@[simp] theorem setMac_cave (n : Nat) (x : MacSt) (s : State) : (setMac n x s).cave = s.cave := rfl
@[simp] theorem setMac_time (n : Nat) (x : MacSt) (s : State) : (setMac n x s).time = s.time := rfl
@[simp] theorem setMac_triad (n : Nat) (x : MacSt) (s : State) : (setMac n x s).triad = s.triad := rfl
@[simp] theorem setMac_scraper (n : Nat) (x : MacSt) (s : State) : (setMac n x s).scraper = s.scraper := rfl
@[simp] theorem setMac_qm (n : Nat) (x : MacSt) (s : State) : (setMac n x s).qm = s.qm := rfl
@[simp] theorem setMac_sched (n : Nat) (x : MacSt) (s : State) : (setMac n x s).sched = s.sched := rfl
@[simp] theorem setMac_roll (n : Nat) (x : MacSt) (s : State) : (setMac n x s).roll = s.roll := rfl
@[simp] theorem setMac_pipes (n : Nat) (x : MacSt) (s : State) : (setMac n x s).pipes = s.pipes := rfl
@[simp] theorem setMac_macs (n : Nat) (x : MacSt) (s : State) : (setMac n x s).macs = mset {} s.macs n x := rfl
@[simp] theorem setMac_enqPath (n : Nat) (x : MacSt) (s : State) : (setMac n x s).enqPath = s.enqPath := rfl
@[simp] theorem setMac_portStats (n : Nat) (x : MacSt) (s : State) : (setMac n x s).portStats = s.portStats := rfl
@[simp] theorem setMac_out (n : Nat) (x : MacSt) (s : State) : (setMac n x s).out = s.out := rfl
@[simp] theorem setMac_mirror (n : Nat) (x : MacSt) (s : State) : (setMac n x s).mirror = s.mirror := rfl
@[simp] theorem setMac_tree (n : Nat) (x : MacSt) (s : State) : (setMac n x s).tree = s.tree := rfl
@[simp] theorem setMac_l2 (n : Nat) (x : MacSt) (s : State) : (setMac n x s).l2 = s.l2 := rfl
@[simp] theorem setMac_routes (n : Nat) (x : MacSt) (s : State) : (setMac n x s).routes = s.routes := rfl
@[simp] theorem setMac_flows (n : Nat) (x : MacSt) (s : State) : (setMac n x s).flows = s.flows := rfl
@[simp] theorem setMac_power (n : Nat) (x : MacSt) (s : State) : (setMac n x s).power = s.power := rfl
@[simp] theorem setMac_lanes (n : Nat) (x : MacSt) (s : State) : (setMac n x s).lanes = s.lanes := rfl
@[simp] theorem setMac_tilePll (n : Nat) (x : MacSt) (s : State) : (setMac n x s).tilePll = s.tilePll := rfl
@[simp] theorem setMac_fabric (n : Nat) (x : MacSt) (s : State) : (setMac n x s).fabric = s.fabric := rfl
@[simp] theorem setMac_perf (n : Nat) (x : MacSt) (s : State) : (setMac n x s).perf = s.perf := rfl
@[simp] theorem setMac_i3c (n : Nat) (x : MacSt) (s : State) : (setMac n x s).i3c = s.i3c := rfl
@[simp] theorem setMac_ctl (n : Nat) (x : MacSt) (s : State) : (setMac n x s).ctl = s.ctl := rfl
@[simp] theorem setMac_flash (n : Nat) (x : MacSt) (s : State) : (setMac n x s).flash = s.flash := rfl
@[simp] theorem setMac_boot (n : Nat) (x : MacSt) (s : State) : (setMac n x s).boot = s.boot := rfl
@[simp] theorem setMac_upd (n : Nat) (x : MacSt) (s : State) : (setMac n x s).upd = s.upd := rfl
@[simp] theorem setMac_sensor (n : Nat) (x : MacSt) (s : State) : (setMac n x s).sensor = s.sensor := rfl

/-! ## setDesc -/

@[simp] theorem setDesc_pending (n : Nat) (x : Desc) (s : State) : (setDesc n x s).pending = s.pending := rfl
@[simp] theorem setDesc_freeCtr (n : Nat) (x : Desc) (s : State) : (setDesc n x s).freeCtr = s.freeCtr := rfl
@[simp] theorem setDesc_now (n : Nat) (x : Desc) (s : State) : (setDesc n x s).now = s.now := rfl
@[simp] theorem setDesc_engines (n : Nat) (x : Desc) (s : State) : (setDesc n x s).engines = s.engines := rfl
@[simp] theorem setDesc_ledger (n : Nat) (x : Desc) (s : State) : (setDesc n x s).ledger = s.ledger := rfl
@[simp] theorem setDesc_whey (n : Nat) (x : Desc) (s : State) : (setDesc n x s).whey = s.whey := rfl
@[simp] theorem setDesc_regs (n : Nat) (x : Desc) (s : State) : (setDesc n x s).regs = s.regs := rfl
@[simp] theorem setDesc_lostEntries (n : Nat) (x : Desc) (s : State) : (setDesc n x s).lostEntries = s.lostEntries := rfl
@[simp] theorem setDesc_bank0 (n : Nat) (x : Desc) (s : State) : (setDesc n x s).bank0 = s.bank0 := rfl
@[simp] theorem setDesc_bank1 (n : Nat) (x : Desc) (s : State) : (setDesc n x s).bank1 = s.bank1 := rfl
@[simp] theorem setDesc_epoch (n : Nat) (x : Desc) (s : State) : (setDesc n x s).epoch = s.epoch := rfl
@[simp] theorem setDesc_vat (n : Nat) (x : Desc) (s : State) : (setDesc n x s).vat = s.vat := rfl
@[simp] theorem setDesc_press (n : Nat) (x : Desc) (s : State) : (setDesc n x s).press = s.press := rfl
@[simp] theorem setDesc_descs (n : Nat) (x : Desc) (s : State) : (setDesc n x s).descs = mset {} s.descs n x := rfl
@[simp] theorem setDesc_cave (n : Nat) (x : Desc) (s : State) : (setDesc n x s).cave = s.cave := rfl
@[simp] theorem setDesc_time (n : Nat) (x : Desc) (s : State) : (setDesc n x s).time = s.time := rfl
@[simp] theorem setDesc_triad (n : Nat) (x : Desc) (s : State) : (setDesc n x s).triad = s.triad := rfl
@[simp] theorem setDesc_scraper (n : Nat) (x : Desc) (s : State) : (setDesc n x s).scraper = s.scraper := rfl
@[simp] theorem setDesc_qm (n : Nat) (x : Desc) (s : State) : (setDesc n x s).qm = s.qm := rfl
@[simp] theorem setDesc_sched (n : Nat) (x : Desc) (s : State) : (setDesc n x s).sched = s.sched := rfl
@[simp] theorem setDesc_roll (n : Nat) (x : Desc) (s : State) : (setDesc n x s).roll = s.roll := rfl
@[simp] theorem setDesc_pipes (n : Nat) (x : Desc) (s : State) : (setDesc n x s).pipes = s.pipes := rfl
@[simp] theorem setDesc_macs (n : Nat) (x : Desc) (s : State) : (setDesc n x s).macs = s.macs := rfl
@[simp] theorem setDesc_enqPath (n : Nat) (x : Desc) (s : State) : (setDesc n x s).enqPath = s.enqPath := rfl
@[simp] theorem setDesc_portStats (n : Nat) (x : Desc) (s : State) : (setDesc n x s).portStats = s.portStats := rfl
@[simp] theorem setDesc_out (n : Nat) (x : Desc) (s : State) : (setDesc n x s).out = s.out := rfl
@[simp] theorem setDesc_mirror (n : Nat) (x : Desc) (s : State) : (setDesc n x s).mirror = s.mirror := rfl
@[simp] theorem setDesc_tree (n : Nat) (x : Desc) (s : State) : (setDesc n x s).tree = s.tree := rfl
@[simp] theorem setDesc_l2 (n : Nat) (x : Desc) (s : State) : (setDesc n x s).l2 = s.l2 := rfl
@[simp] theorem setDesc_routes (n : Nat) (x : Desc) (s : State) : (setDesc n x s).routes = s.routes := rfl
@[simp] theorem setDesc_flows (n : Nat) (x : Desc) (s : State) : (setDesc n x s).flows = s.flows := rfl
@[simp] theorem setDesc_power (n : Nat) (x : Desc) (s : State) : (setDesc n x s).power = s.power := rfl
@[simp] theorem setDesc_lanes (n : Nat) (x : Desc) (s : State) : (setDesc n x s).lanes = s.lanes := rfl
@[simp] theorem setDesc_tilePll (n : Nat) (x : Desc) (s : State) : (setDesc n x s).tilePll = s.tilePll := rfl
@[simp] theorem setDesc_fabric (n : Nat) (x : Desc) (s : State) : (setDesc n x s).fabric = s.fabric := rfl
@[simp] theorem setDesc_perf (n : Nat) (x : Desc) (s : State) : (setDesc n x s).perf = s.perf := rfl
@[simp] theorem setDesc_i3c (n : Nat) (x : Desc) (s : State) : (setDesc n x s).i3c = s.i3c := rfl
@[simp] theorem setDesc_ctl (n : Nat) (x : Desc) (s : State) : (setDesc n x s).ctl = s.ctl := rfl
@[simp] theorem setDesc_flash (n : Nat) (x : Desc) (s : State) : (setDesc n x s).flash = s.flash := rfl
@[simp] theorem setDesc_boot (n : Nat) (x : Desc) (s : State) : (setDesc n x s).boot = s.boot := rfl
@[simp] theorem setDesc_upd (n : Nat) (x : Desc) (s : State) : (setDesc n x s).upd = s.upd := rfl
@[simp] theorem setDesc_sensor (n : Nat) (x : Desc) (s : State) : (setDesc n x s).sensor = s.sensor := rfl

/-! ## setEngine -/

@[simp] theorem setEngine_pending (e : Nat) (x : Engine) (s : State) : (setEngine e x s).pending = s.pending := rfl
@[simp] theorem setEngine_freeCtr (e : Nat) (x : Engine) (s : State) : (setEngine e x s).freeCtr = s.freeCtr := rfl
@[simp] theorem setEngine_now (e : Nat) (x : Engine) (s : State) : (setEngine e x s).now = s.now := rfl
@[simp] theorem setEngine_engines (e : Nat) (x : Engine) (s : State) : (setEngine e x s).engines = mset {} s.engines e x := rfl
@[simp] theorem setEngine_ledger (e : Nat) (x : Engine) (s : State) : (setEngine e x s).ledger = s.ledger := rfl
@[simp] theorem setEngine_whey (e : Nat) (x : Engine) (s : State) : (setEngine e x s).whey = s.whey := rfl
@[simp] theorem setEngine_regs (e : Nat) (x : Engine) (s : State) : (setEngine e x s).regs = s.regs := rfl
@[simp] theorem setEngine_lostEntries (e : Nat) (x : Engine) (s : State) : (setEngine e x s).lostEntries = s.lostEntries := rfl
@[simp] theorem setEngine_bank0 (e : Nat) (x : Engine) (s : State) : (setEngine e x s).bank0 = s.bank0 := rfl
@[simp] theorem setEngine_bank1 (e : Nat) (x : Engine) (s : State) : (setEngine e x s).bank1 = s.bank1 := rfl
@[simp] theorem setEngine_epoch (e : Nat) (x : Engine) (s : State) : (setEngine e x s).epoch = s.epoch := rfl
@[simp] theorem setEngine_vat (e : Nat) (x : Engine) (s : State) : (setEngine e x s).vat = s.vat := rfl
@[simp] theorem setEngine_press (e : Nat) (x : Engine) (s : State) : (setEngine e x s).press = s.press := rfl
@[simp] theorem setEngine_descs (e : Nat) (x : Engine) (s : State) : (setEngine e x s).descs = s.descs := rfl
@[simp] theorem setEngine_cave (e : Nat) (x : Engine) (s : State) : (setEngine e x s).cave = s.cave := rfl
@[simp] theorem setEngine_time (e : Nat) (x : Engine) (s : State) : (setEngine e x s).time = s.time := rfl
@[simp] theorem setEngine_triad (e : Nat) (x : Engine) (s : State) : (setEngine e x s).triad = s.triad := rfl
@[simp] theorem setEngine_scraper (e : Nat) (x : Engine) (s : State) : (setEngine e x s).scraper = s.scraper := rfl
@[simp] theorem setEngine_qm (e : Nat) (x : Engine) (s : State) : (setEngine e x s).qm = s.qm := rfl
@[simp] theorem setEngine_sched (e : Nat) (x : Engine) (s : State) : (setEngine e x s).sched = s.sched := rfl
@[simp] theorem setEngine_roll (e : Nat) (x : Engine) (s : State) : (setEngine e x s).roll = s.roll := rfl
@[simp] theorem setEngine_pipes (e : Nat) (x : Engine) (s : State) : (setEngine e x s).pipes = s.pipes := rfl
@[simp] theorem setEngine_macs (e : Nat) (x : Engine) (s : State) : (setEngine e x s).macs = s.macs := rfl
@[simp] theorem setEngine_enqPath (e : Nat) (x : Engine) (s : State) : (setEngine e x s).enqPath = s.enqPath := rfl
@[simp] theorem setEngine_portStats (e : Nat) (x : Engine) (s : State) : (setEngine e x s).portStats = s.portStats := rfl
@[simp] theorem setEngine_out (e : Nat) (x : Engine) (s : State) : (setEngine e x s).out = s.out := rfl
@[simp] theorem setEngine_mirror (e : Nat) (x : Engine) (s : State) : (setEngine e x s).mirror = s.mirror := rfl
@[simp] theorem setEngine_tree (e : Nat) (x : Engine) (s : State) : (setEngine e x s).tree = s.tree := rfl
@[simp] theorem setEngine_l2 (e : Nat) (x : Engine) (s : State) : (setEngine e x s).l2 = s.l2 := rfl
@[simp] theorem setEngine_routes (e : Nat) (x : Engine) (s : State) : (setEngine e x s).routes = s.routes := rfl
@[simp] theorem setEngine_flows (e : Nat) (x : Engine) (s : State) : (setEngine e x s).flows = s.flows := rfl
@[simp] theorem setEngine_power (e : Nat) (x : Engine) (s : State) : (setEngine e x s).power = s.power := rfl
@[simp] theorem setEngine_lanes (e : Nat) (x : Engine) (s : State) : (setEngine e x s).lanes = s.lanes := rfl
@[simp] theorem setEngine_tilePll (e : Nat) (x : Engine) (s : State) : (setEngine e x s).tilePll = s.tilePll := rfl
@[simp] theorem setEngine_fabric (e : Nat) (x : Engine) (s : State) : (setEngine e x s).fabric = s.fabric := rfl
@[simp] theorem setEngine_perf (e : Nat) (x : Engine) (s : State) : (setEngine e x s).perf = s.perf := rfl
@[simp] theorem setEngine_i3c (e : Nat) (x : Engine) (s : State) : (setEngine e x s).i3c = s.i3c := rfl
@[simp] theorem setEngine_ctl (e : Nat) (x : Engine) (s : State) : (setEngine e x s).ctl = s.ctl := rfl
@[simp] theorem setEngine_flash (e : Nat) (x : Engine) (s : State) : (setEngine e x s).flash = s.flash := rfl
@[simp] theorem setEngine_boot (e : Nat) (x : Engine) (s : State) : (setEngine e x s).boot = s.boot := rfl
@[simp] theorem setEngine_upd (e : Nat) (x : Engine) (s : State) : (setEngine e x s).upd = s.upd := rfl
@[simp] theorem setEngine_sensor (e : Nat) (x : Engine) (s : State) : (setEngine e x s).sensor = s.sensor := rfl

/-! ## setQ -/

@[simp] theorem setQ_pending (q : Nat) (x : QSt) (s : State) : (setQ q x s).pending = s.pending := rfl
@[simp] theorem setQ_freeCtr (q : Nat) (x : QSt) (s : State) : (setQ q x s).freeCtr = s.freeCtr := rfl
@[simp] theorem setQ_now (q : Nat) (x : QSt) (s : State) : (setQ q x s).now = s.now := rfl
@[simp] theorem setQ_engines (q : Nat) (x : QSt) (s : State) : (setQ q x s).engines = s.engines := rfl
@[simp] theorem setQ_ledger (q : Nat) (x : QSt) (s : State) : (setQ q x s).ledger = s.ledger := rfl
@[simp] theorem setQ_whey (q : Nat) (x : QSt) (s : State) : (setQ q x s).whey = s.whey := rfl
@[simp] theorem setQ_regs (q : Nat) (x : QSt) (s : State) : (setQ q x s).regs = s.regs := rfl
@[simp] theorem setQ_lostEntries (q : Nat) (x : QSt) (s : State) : (setQ q x s).lostEntries = s.lostEntries := rfl
@[simp] theorem setQ_bank0 (q : Nat) (x : QSt) (s : State) : (setQ q x s).bank0 = s.bank0 := rfl
@[simp] theorem setQ_bank1 (q : Nat) (x : QSt) (s : State) : (setQ q x s).bank1 = s.bank1 := rfl
@[simp] theorem setQ_epoch (q : Nat) (x : QSt) (s : State) : (setQ q x s).epoch = s.epoch := rfl
@[simp] theorem setQ_vat (q : Nat) (x : QSt) (s : State) : (setQ q x s).vat = s.vat := rfl
@[simp] theorem setQ_press (q : Nat) (x : QSt) (s : State) : (setQ q x s).press = s.press := rfl
@[simp] theorem setQ_descs (q : Nat) (x : QSt) (s : State) : (setQ q x s).descs = s.descs := rfl
@[simp] theorem setQ_cave (q : Nat) (x : QSt) (s : State) : (setQ q x s).cave = s.cave := rfl
@[simp] theorem setQ_time (q : Nat) (x : QSt) (s : State) : (setQ q x s).time = s.time := rfl
@[simp] theorem setQ_triad (q : Nat) (x : QSt) (s : State) : (setQ q x s).triad = s.triad := rfl
@[simp] theorem setQ_scraper (q : Nat) (x : QSt) (s : State) : (setQ q x s).scraper = s.scraper := rfl
@[simp] theorem setQ_qm (q : Nat) (x : QSt) (s : State) : (setQ q x s).qm = { s.qm with states := mset {} s.qm.states q x } := rfl
@[simp] theorem setQ_sched (q : Nat) (x : QSt) (s : State) : (setQ q x s).sched = s.sched := rfl
@[simp] theorem setQ_roll (q : Nat) (x : QSt) (s : State) : (setQ q x s).roll = s.roll := rfl
@[simp] theorem setQ_pipes (q : Nat) (x : QSt) (s : State) : (setQ q x s).pipes = s.pipes := rfl
@[simp] theorem setQ_macs (q : Nat) (x : QSt) (s : State) : (setQ q x s).macs = s.macs := rfl
@[simp] theorem setQ_enqPath (q : Nat) (x : QSt) (s : State) : (setQ q x s).enqPath = s.enqPath := rfl
@[simp] theorem setQ_portStats (q : Nat) (x : QSt) (s : State) : (setQ q x s).portStats = s.portStats := rfl
@[simp] theorem setQ_out (q : Nat) (x : QSt) (s : State) : (setQ q x s).out = s.out := rfl
@[simp] theorem setQ_mirror (q : Nat) (x : QSt) (s : State) : (setQ q x s).mirror = s.mirror := rfl
@[simp] theorem setQ_tree (q : Nat) (x : QSt) (s : State) : (setQ q x s).tree = s.tree := rfl
@[simp] theorem setQ_l2 (q : Nat) (x : QSt) (s : State) : (setQ q x s).l2 = s.l2 := rfl
@[simp] theorem setQ_routes (q : Nat) (x : QSt) (s : State) : (setQ q x s).routes = s.routes := rfl
@[simp] theorem setQ_flows (q : Nat) (x : QSt) (s : State) : (setQ q x s).flows = s.flows := rfl
@[simp] theorem setQ_power (q : Nat) (x : QSt) (s : State) : (setQ q x s).power = s.power := rfl
@[simp] theorem setQ_lanes (q : Nat) (x : QSt) (s : State) : (setQ q x s).lanes = s.lanes := rfl
@[simp] theorem setQ_tilePll (q : Nat) (x : QSt) (s : State) : (setQ q x s).tilePll = s.tilePll := rfl
@[simp] theorem setQ_fabric (q : Nat) (x : QSt) (s : State) : (setQ q x s).fabric = s.fabric := rfl
@[simp] theorem setQ_perf (q : Nat) (x : QSt) (s : State) : (setQ q x s).perf = s.perf := rfl
@[simp] theorem setQ_i3c (q : Nat) (x : QSt) (s : State) : (setQ q x s).i3c = s.i3c := rfl
@[simp] theorem setQ_ctl (q : Nat) (x : QSt) (s : State) : (setQ q x s).ctl = s.ctl := rfl
@[simp] theorem setQ_flash (q : Nat) (x : QSt) (s : State) : (setQ q x s).flash = s.flash := rfl
@[simp] theorem setQ_boot (q : Nat) (x : QSt) (s : State) : (setQ q x s).boot = s.boot := rfl
@[simp] theorem setQ_upd (q : Nat) (x : QSt) (s : State) : (setQ q x s).upd = s.upd := rfl
@[simp] theorem setQ_sensor (q : Nat) (x : QSt) (s : State) : (setQ q x s).sensor = s.sensor := rfl

/-! ## setVoq -/

@[simp] theorem setVoq_pending (q : Nat) (x : VoqSt) (s : State) : (setVoq q x s).pending = s.pending := rfl
@[simp] theorem setVoq_freeCtr (q : Nat) (x : VoqSt) (s : State) : (setVoq q x s).freeCtr = s.freeCtr := rfl
@[simp] theorem setVoq_now (q : Nat) (x : VoqSt) (s : State) : (setVoq q x s).now = s.now := rfl
@[simp] theorem setVoq_engines (q : Nat) (x : VoqSt) (s : State) : (setVoq q x s).engines = s.engines := rfl
@[simp] theorem setVoq_ledger (q : Nat) (x : VoqSt) (s : State) : (setVoq q x s).ledger = s.ledger := rfl
@[simp] theorem setVoq_whey (q : Nat) (x : VoqSt) (s : State) : (setVoq q x s).whey = s.whey := rfl
@[simp] theorem setVoq_regs (q : Nat) (x : VoqSt) (s : State) : (setVoq q x s).regs = s.regs := rfl
@[simp] theorem setVoq_lostEntries (q : Nat) (x : VoqSt) (s : State) : (setVoq q x s).lostEntries = s.lostEntries := rfl
@[simp] theorem setVoq_bank0 (q : Nat) (x : VoqSt) (s : State) : (setVoq q x s).bank0 = s.bank0 := rfl
@[simp] theorem setVoq_bank1 (q : Nat) (x : VoqSt) (s : State) : (setVoq q x s).bank1 = s.bank1 := rfl
@[simp] theorem setVoq_epoch (q : Nat) (x : VoqSt) (s : State) : (setVoq q x s).epoch = s.epoch := rfl
@[simp] theorem setVoq_vat (q : Nat) (x : VoqSt) (s : State) : (setVoq q x s).vat = s.vat := rfl
@[simp] theorem setVoq_press (q : Nat) (x : VoqSt) (s : State) : (setVoq q x s).press = s.press := rfl
@[simp] theorem setVoq_descs (q : Nat) (x : VoqSt) (s : State) : (setVoq q x s).descs = s.descs := rfl
@[simp] theorem setVoq_cave (q : Nat) (x : VoqSt) (s : State) : (setVoq q x s).cave = s.cave := rfl
@[simp] theorem setVoq_time (q : Nat) (x : VoqSt) (s : State) : (setVoq q x s).time = s.time := rfl
@[simp] theorem setVoq_triad (q : Nat) (x : VoqSt) (s : State) : (setVoq q x s).triad = s.triad := rfl
@[simp] theorem setVoq_scraper (q : Nat) (x : VoqSt) (s : State) : (setVoq q x s).scraper = s.scraper := rfl
@[simp] theorem setVoq_qm (q : Nat) (x : VoqSt) (s : State) : (setVoq q x s).qm = s.qm := rfl
@[simp] theorem setVoq_sched (q : Nat) (x : VoqSt) (s : State) : (setVoq q x s).sched = s.sched := rfl
@[simp] theorem setVoq_roll (q : Nat) (x : VoqSt) (s : State) : (setVoq q x s).roll = s.roll := rfl
@[simp] theorem setVoq_pipes (q : Nat) (x : VoqSt) (s : State) : (setVoq q x s).pipes = s.pipes := rfl
@[simp] theorem setVoq_macs (q : Nat) (x : VoqSt) (s : State) : (setVoq q x s).macs = s.macs := rfl
@[simp] theorem setVoq_enqPath (q : Nat) (x : VoqSt) (s : State) : (setVoq q x s).enqPath = s.enqPath := rfl
@[simp] theorem setVoq_portStats (q : Nat) (x : VoqSt) (s : State) : (setVoq q x s).portStats = s.portStats := rfl
@[simp] theorem setVoq_out (q : Nat) (x : VoqSt) (s : State) : (setVoq q x s).out = s.out := rfl
@[simp] theorem setVoq_mirror (q : Nat) (x : VoqSt) (s : State) : (setVoq q x s).mirror = s.mirror := rfl
@[simp] theorem setVoq_tree (q : Nat) (x : VoqSt) (s : State) : (setVoq q x s).tree = s.tree := rfl
@[simp] theorem setVoq_l2 (q : Nat) (x : VoqSt) (s : State) : (setVoq q x s).l2 = s.l2 := rfl
@[simp] theorem setVoq_routes (q : Nat) (x : VoqSt) (s : State) : (setVoq q x s).routes = s.routes := rfl
@[simp] theorem setVoq_flows (q : Nat) (x : VoqSt) (s : State) : (setVoq q x s).flows = s.flows := rfl
@[simp] theorem setVoq_power (q : Nat) (x : VoqSt) (s : State) : (setVoq q x s).power = s.power := rfl
@[simp] theorem setVoq_lanes (q : Nat) (x : VoqSt) (s : State) : (setVoq q x s).lanes = s.lanes := rfl
@[simp] theorem setVoq_tilePll (q : Nat) (x : VoqSt) (s : State) : (setVoq q x s).tilePll = s.tilePll := rfl
@[simp] theorem setVoq_fabric (q : Nat) (x : VoqSt) (s : State) : (setVoq q x s).fabric = { s.fabric with voqs := mset {} s.fabric.voqs q x } := rfl
@[simp] theorem setVoq_perf (q : Nat) (x : VoqSt) (s : State) : (setVoq q x s).perf = s.perf := rfl
@[simp] theorem setVoq_i3c (q : Nat) (x : VoqSt) (s : State) : (setVoq q x s).i3c = s.i3c := rfl
@[simp] theorem setVoq_ctl (q : Nat) (x : VoqSt) (s : State) : (setVoq q x s).ctl = s.ctl := rfl
@[simp] theorem setVoq_flash (q : Nat) (x : VoqSt) (s : State) : (setVoq q x s).flash = s.flash := rfl
@[simp] theorem setVoq_boot (q : Nat) (x : VoqSt) (s : State) : (setVoq q x s).boot = s.boot := rfl
@[simp] theorem setVoq_upd (q : Nat) (x : VoqSt) (s : State) : (setVoq q x s).upd = s.upd := rfl
@[simp] theorem setVoq_sensor (q : Nat) (x : VoqSt) (s : State) : (setVoq q x s).sensor = s.sensor := rfl

/-! ## setLink -/

@[simp] theorem setLink_pending (n : Nat) (x : LinkSt) (s : State) : (setLink n x s).pending = s.pending := rfl
@[simp] theorem setLink_freeCtr (n : Nat) (x : LinkSt) (s : State) : (setLink n x s).freeCtr = s.freeCtr := rfl
@[simp] theorem setLink_now (n : Nat) (x : LinkSt) (s : State) : (setLink n x s).now = s.now := rfl
@[simp] theorem setLink_engines (n : Nat) (x : LinkSt) (s : State) : (setLink n x s).engines = s.engines := rfl
@[simp] theorem setLink_ledger (n : Nat) (x : LinkSt) (s : State) : (setLink n x s).ledger = s.ledger := rfl
@[simp] theorem setLink_whey (n : Nat) (x : LinkSt) (s : State) : (setLink n x s).whey = s.whey := rfl
@[simp] theorem setLink_regs (n : Nat) (x : LinkSt) (s : State) : (setLink n x s).regs = s.regs := rfl
@[simp] theorem setLink_lostEntries (n : Nat) (x : LinkSt) (s : State) : (setLink n x s).lostEntries = s.lostEntries := rfl
@[simp] theorem setLink_bank0 (n : Nat) (x : LinkSt) (s : State) : (setLink n x s).bank0 = s.bank0 := rfl
@[simp] theorem setLink_bank1 (n : Nat) (x : LinkSt) (s : State) : (setLink n x s).bank1 = s.bank1 := rfl
@[simp] theorem setLink_epoch (n : Nat) (x : LinkSt) (s : State) : (setLink n x s).epoch = s.epoch := rfl
@[simp] theorem setLink_vat (n : Nat) (x : LinkSt) (s : State) : (setLink n x s).vat = s.vat := rfl
@[simp] theorem setLink_press (n : Nat) (x : LinkSt) (s : State) : (setLink n x s).press = s.press := rfl
@[simp] theorem setLink_descs (n : Nat) (x : LinkSt) (s : State) : (setLink n x s).descs = s.descs := rfl
@[simp] theorem setLink_cave (n : Nat) (x : LinkSt) (s : State) : (setLink n x s).cave = s.cave := rfl
@[simp] theorem setLink_time (n : Nat) (x : LinkSt) (s : State) : (setLink n x s).time = s.time := rfl
@[simp] theorem setLink_triad (n : Nat) (x : LinkSt) (s : State) : (setLink n x s).triad = s.triad := rfl
@[simp] theorem setLink_scraper (n : Nat) (x : LinkSt) (s : State) : (setLink n x s).scraper = s.scraper := rfl
@[simp] theorem setLink_qm (n : Nat) (x : LinkSt) (s : State) : (setLink n x s).qm = s.qm := rfl
@[simp] theorem setLink_sched (n : Nat) (x : LinkSt) (s : State) : (setLink n x s).sched = s.sched := rfl
@[simp] theorem setLink_roll (n : Nat) (x : LinkSt) (s : State) : (setLink n x s).roll = s.roll := rfl
@[simp] theorem setLink_pipes (n : Nat) (x : LinkSt) (s : State) : (setLink n x s).pipes = s.pipes := rfl
@[simp] theorem setLink_macs (n : Nat) (x : LinkSt) (s : State) : (setLink n x s).macs = s.macs := rfl
@[simp] theorem setLink_enqPath (n : Nat) (x : LinkSt) (s : State) : (setLink n x s).enqPath = s.enqPath := rfl
@[simp] theorem setLink_portStats (n : Nat) (x : LinkSt) (s : State) : (setLink n x s).portStats = s.portStats := rfl
@[simp] theorem setLink_out (n : Nat) (x : LinkSt) (s : State) : (setLink n x s).out = s.out := rfl
@[simp] theorem setLink_mirror (n : Nat) (x : LinkSt) (s : State) : (setLink n x s).mirror = s.mirror := rfl
@[simp] theorem setLink_tree (n : Nat) (x : LinkSt) (s : State) : (setLink n x s).tree = s.tree := rfl
@[simp] theorem setLink_l2 (n : Nat) (x : LinkSt) (s : State) : (setLink n x s).l2 = s.l2 := rfl
@[simp] theorem setLink_routes (n : Nat) (x : LinkSt) (s : State) : (setLink n x s).routes = s.routes := rfl
@[simp] theorem setLink_flows (n : Nat) (x : LinkSt) (s : State) : (setLink n x s).flows = s.flows := rfl
@[simp] theorem setLink_power (n : Nat) (x : LinkSt) (s : State) : (setLink n x s).power = s.power := rfl
@[simp] theorem setLink_lanes (n : Nat) (x : LinkSt) (s : State) : (setLink n x s).lanes = s.lanes := rfl
@[simp] theorem setLink_tilePll (n : Nat) (x : LinkSt) (s : State) : (setLink n x s).tilePll = s.tilePll := rfl
@[simp] theorem setLink_fabric (n : Nat) (x : LinkSt) (s : State) : (setLink n x s).fabric = { s.fabric with links := mset {} s.fabric.links n x } := rfl
@[simp] theorem setLink_perf (n : Nat) (x : LinkSt) (s : State) : (setLink n x s).perf = s.perf := rfl
@[simp] theorem setLink_i3c (n : Nat) (x : LinkSt) (s : State) : (setLink n x s).i3c = s.i3c := rfl
@[simp] theorem setLink_ctl (n : Nat) (x : LinkSt) (s : State) : (setLink n x s).ctl = s.ctl := rfl
@[simp] theorem setLink_flash (n : Nat) (x : LinkSt) (s : State) : (setLink n x s).flash = s.flash := rfl
@[simp] theorem setLink_boot (n : Nat) (x : LinkSt) (s : State) : (setLink n x s).boot = s.boot := rfl
@[simp] theorem setLink_upd (n : Nat) (x : LinkSt) (s : State) : (setLink n x s).upd = s.upd := rfl
@[simp] theorem setLink_sensor (n : Nat) (x : LinkSt) (s : State) : (setLink n x s).sensor = s.sensor := rfl

/-! ## setPeer -/

@[simp] theorem setPeer_pending (u : Nat) (x : PeerUnit) (s : State) : (setPeer u x s).pending = s.pending := rfl
@[simp] theorem setPeer_freeCtr (u : Nat) (x : PeerUnit) (s : State) : (setPeer u x s).freeCtr = s.freeCtr := rfl
@[simp] theorem setPeer_now (u : Nat) (x : PeerUnit) (s : State) : (setPeer u x s).now = s.now := rfl
@[simp] theorem setPeer_engines (u : Nat) (x : PeerUnit) (s : State) : (setPeer u x s).engines = s.engines := rfl
@[simp] theorem setPeer_ledger (u : Nat) (x : PeerUnit) (s : State) : (setPeer u x s).ledger = s.ledger := rfl
@[simp] theorem setPeer_whey (u : Nat) (x : PeerUnit) (s : State) : (setPeer u x s).whey = s.whey := rfl
@[simp] theorem setPeer_regs (u : Nat) (x : PeerUnit) (s : State) : (setPeer u x s).regs = s.regs := rfl
@[simp] theorem setPeer_lostEntries (u : Nat) (x : PeerUnit) (s : State) : (setPeer u x s).lostEntries = s.lostEntries := rfl
@[simp] theorem setPeer_bank0 (u : Nat) (x : PeerUnit) (s : State) : (setPeer u x s).bank0 = s.bank0 := rfl
@[simp] theorem setPeer_bank1 (u : Nat) (x : PeerUnit) (s : State) : (setPeer u x s).bank1 = s.bank1 := rfl
@[simp] theorem setPeer_epoch (u : Nat) (x : PeerUnit) (s : State) : (setPeer u x s).epoch = s.epoch := rfl
@[simp] theorem setPeer_vat (u : Nat) (x : PeerUnit) (s : State) : (setPeer u x s).vat = s.vat := rfl
@[simp] theorem setPeer_press (u : Nat) (x : PeerUnit) (s : State) : (setPeer u x s).press = s.press := rfl
@[simp] theorem setPeer_descs (u : Nat) (x : PeerUnit) (s : State) : (setPeer u x s).descs = s.descs := rfl
@[simp] theorem setPeer_cave (u : Nat) (x : PeerUnit) (s : State) : (setPeer u x s).cave = s.cave := rfl
@[simp] theorem setPeer_time (u : Nat) (x : PeerUnit) (s : State) : (setPeer u x s).time = s.time := rfl
@[simp] theorem setPeer_triad (u : Nat) (x : PeerUnit) (s : State) : (setPeer u x s).triad = s.triad := rfl
@[simp] theorem setPeer_scraper (u : Nat) (x : PeerUnit) (s : State) : (setPeer u x s).scraper = s.scraper := rfl
@[simp] theorem setPeer_qm (u : Nat) (x : PeerUnit) (s : State) : (setPeer u x s).qm = s.qm := rfl
@[simp] theorem setPeer_sched (u : Nat) (x : PeerUnit) (s : State) : (setPeer u x s).sched = s.sched := rfl
@[simp] theorem setPeer_roll (u : Nat) (x : PeerUnit) (s : State) : (setPeer u x s).roll = { s.roll with peers := mset {} s.roll.peers u x } := rfl
@[simp] theorem setPeer_pipes (u : Nat) (x : PeerUnit) (s : State) : (setPeer u x s).pipes = s.pipes := rfl
@[simp] theorem setPeer_macs (u : Nat) (x : PeerUnit) (s : State) : (setPeer u x s).macs = s.macs := rfl
@[simp] theorem setPeer_enqPath (u : Nat) (x : PeerUnit) (s : State) : (setPeer u x s).enqPath = s.enqPath := rfl
@[simp] theorem setPeer_portStats (u : Nat) (x : PeerUnit) (s : State) : (setPeer u x s).portStats = s.portStats := rfl
@[simp] theorem setPeer_out (u : Nat) (x : PeerUnit) (s : State) : (setPeer u x s).out = s.out := rfl
@[simp] theorem setPeer_mirror (u : Nat) (x : PeerUnit) (s : State) : (setPeer u x s).mirror = s.mirror := rfl
@[simp] theorem setPeer_tree (u : Nat) (x : PeerUnit) (s : State) : (setPeer u x s).tree = s.tree := rfl
@[simp] theorem setPeer_l2 (u : Nat) (x : PeerUnit) (s : State) : (setPeer u x s).l2 = s.l2 := rfl
@[simp] theorem setPeer_routes (u : Nat) (x : PeerUnit) (s : State) : (setPeer u x s).routes = s.routes := rfl
@[simp] theorem setPeer_flows (u : Nat) (x : PeerUnit) (s : State) : (setPeer u x s).flows = s.flows := rfl
@[simp] theorem setPeer_power (u : Nat) (x : PeerUnit) (s : State) : (setPeer u x s).power = s.power := rfl
@[simp] theorem setPeer_lanes (u : Nat) (x : PeerUnit) (s : State) : (setPeer u x s).lanes = s.lanes := rfl
@[simp] theorem setPeer_tilePll (u : Nat) (x : PeerUnit) (s : State) : (setPeer u x s).tilePll = s.tilePll := rfl
@[simp] theorem setPeer_fabric (u : Nat) (x : PeerUnit) (s : State) : (setPeer u x s).fabric = s.fabric := rfl
@[simp] theorem setPeer_perf (u : Nat) (x : PeerUnit) (s : State) : (setPeer u x s).perf = s.perf := rfl
@[simp] theorem setPeer_i3c (u : Nat) (x : PeerUnit) (s : State) : (setPeer u x s).i3c = s.i3c := rfl
@[simp] theorem setPeer_ctl (u : Nat) (x : PeerUnit) (s : State) : (setPeer u x s).ctl = s.ctl := rfl
@[simp] theorem setPeer_flash (u : Nat) (x : PeerUnit) (s : State) : (setPeer u x s).flash = s.flash := rfl
@[simp] theorem setPeer_boot (u : Nat) (x : PeerUnit) (s : State) : (setPeer u x s).boot = s.boot := rfl
@[simp] theorem setPeer_upd (u : Nat) (x : PeerUnit) (s : State) : (setPeer u x s).upd = s.upd := rfl
@[simp] theorem setPeer_sensor (u : Nat) (x : PeerUnit) (s : State) : (setPeer u x s).sensor = s.sensor := rfl

/-! ## setChan -/

@[simp] theorem setChan_pending (c : Nat) (x : CaveChan) (s : State) : (setChan c x s).pending = s.pending := rfl
@[simp] theorem setChan_freeCtr (c : Nat) (x : CaveChan) (s : State) : (setChan c x s).freeCtr = s.freeCtr := rfl
@[simp] theorem setChan_now (c : Nat) (x : CaveChan) (s : State) : (setChan c x s).now = s.now := rfl
@[simp] theorem setChan_engines (c : Nat) (x : CaveChan) (s : State) : (setChan c x s).engines = s.engines := rfl
@[simp] theorem setChan_ledger (c : Nat) (x : CaveChan) (s : State) : (setChan c x s).ledger = s.ledger := rfl
@[simp] theorem setChan_whey (c : Nat) (x : CaveChan) (s : State) : (setChan c x s).whey = s.whey := rfl
@[simp] theorem setChan_regs (c : Nat) (x : CaveChan) (s : State) : (setChan c x s).regs = s.regs := rfl
@[simp] theorem setChan_lostEntries (c : Nat) (x : CaveChan) (s : State) : (setChan c x s).lostEntries = s.lostEntries := rfl
@[simp] theorem setChan_bank0 (c : Nat) (x : CaveChan) (s : State) : (setChan c x s).bank0 = s.bank0 := rfl
@[simp] theorem setChan_bank1 (c : Nat) (x : CaveChan) (s : State) : (setChan c x s).bank1 = s.bank1 := rfl
@[simp] theorem setChan_epoch (c : Nat) (x : CaveChan) (s : State) : (setChan c x s).epoch = s.epoch := rfl
@[simp] theorem setChan_vat (c : Nat) (x : CaveChan) (s : State) : (setChan c x s).vat = s.vat := rfl
@[simp] theorem setChan_press (c : Nat) (x : CaveChan) (s : State) : (setChan c x s).press = s.press := rfl
@[simp] theorem setChan_descs (c : Nat) (x : CaveChan) (s : State) : (setChan c x s).descs = s.descs := rfl
@[simp] theorem setChan_cave (c : Nat) (x : CaveChan) (s : State) : (setChan c x s).cave = { s.cave with chan := mset {} s.cave.chan c x } := rfl
@[simp] theorem setChan_time (c : Nat) (x : CaveChan) (s : State) : (setChan c x s).time = s.time := rfl
@[simp] theorem setChan_triad (c : Nat) (x : CaveChan) (s : State) : (setChan c x s).triad = s.triad := rfl
@[simp] theorem setChan_scraper (c : Nat) (x : CaveChan) (s : State) : (setChan c x s).scraper = s.scraper := rfl
@[simp] theorem setChan_qm (c : Nat) (x : CaveChan) (s : State) : (setChan c x s).qm = s.qm := rfl
@[simp] theorem setChan_sched (c : Nat) (x : CaveChan) (s : State) : (setChan c x s).sched = s.sched := rfl
@[simp] theorem setChan_roll (c : Nat) (x : CaveChan) (s : State) : (setChan c x s).roll = s.roll := rfl
@[simp] theorem setChan_pipes (c : Nat) (x : CaveChan) (s : State) : (setChan c x s).pipes = s.pipes := rfl
@[simp] theorem setChan_macs (c : Nat) (x : CaveChan) (s : State) : (setChan c x s).macs = s.macs := rfl
@[simp] theorem setChan_enqPath (c : Nat) (x : CaveChan) (s : State) : (setChan c x s).enqPath = s.enqPath := rfl
@[simp] theorem setChan_portStats (c : Nat) (x : CaveChan) (s : State) : (setChan c x s).portStats = s.portStats := rfl
@[simp] theorem setChan_out (c : Nat) (x : CaveChan) (s : State) : (setChan c x s).out = s.out := rfl
@[simp] theorem setChan_mirror (c : Nat) (x : CaveChan) (s : State) : (setChan c x s).mirror = s.mirror := rfl
@[simp] theorem setChan_tree (c : Nat) (x : CaveChan) (s : State) : (setChan c x s).tree = s.tree := rfl
@[simp] theorem setChan_l2 (c : Nat) (x : CaveChan) (s : State) : (setChan c x s).l2 = s.l2 := rfl
@[simp] theorem setChan_routes (c : Nat) (x : CaveChan) (s : State) : (setChan c x s).routes = s.routes := rfl
@[simp] theorem setChan_flows (c : Nat) (x : CaveChan) (s : State) : (setChan c x s).flows = s.flows := rfl
@[simp] theorem setChan_power (c : Nat) (x : CaveChan) (s : State) : (setChan c x s).power = s.power := rfl
@[simp] theorem setChan_lanes (c : Nat) (x : CaveChan) (s : State) : (setChan c x s).lanes = s.lanes := rfl
@[simp] theorem setChan_tilePll (c : Nat) (x : CaveChan) (s : State) : (setChan c x s).tilePll = s.tilePll := rfl
@[simp] theorem setChan_fabric (c : Nat) (x : CaveChan) (s : State) : (setChan c x s).fabric = s.fabric := rfl
@[simp] theorem setChan_perf (c : Nat) (x : CaveChan) (s : State) : (setChan c x s).perf = s.perf := rfl
@[simp] theorem setChan_i3c (c : Nat) (x : CaveChan) (s : State) : (setChan c x s).i3c = s.i3c := rfl
@[simp] theorem setChan_ctl (c : Nat) (x : CaveChan) (s : State) : (setChan c x s).ctl = s.ctl := rfl
@[simp] theorem setChan_flash (c : Nat) (x : CaveChan) (s : State) : (setChan c x s).flash = s.flash := rfl
@[simp] theorem setChan_boot (c : Nat) (x : CaveChan) (s : State) : (setChan c x s).boot = s.boot := rfl
@[simp] theorem setChan_upd (c : Nat) (x : CaveChan) (s : State) : (setChan c x s).upd = s.upd := rfl
@[simp] theorem setChan_sensor (c : Nat) (x : CaveChan) (s : State) : (setChan c x s).sensor = s.sensor := rfl

/-! ## setWheel -/

@[simp] theorem setWheel_pending (n due : Nat) (s : State) : (setWheel n due s).pending = s.pending := rfl
@[simp] theorem setWheel_freeCtr (n due : Nat) (s : State) : (setWheel n due s).freeCtr = s.freeCtr := rfl
@[simp] theorem setWheel_now (n due : Nat) (s : State) : (setWheel n due s).now = s.now := rfl
@[simp] theorem setWheel_engines (n due : Nat) (s : State) : (setWheel n due s).engines = s.engines := rfl
@[simp] theorem setWheel_ledger (n due : Nat) (s : State) : (setWheel n due s).ledger = s.ledger := rfl
@[simp] theorem setWheel_whey (n due : Nat) (s : State) : (setWheel n due s).whey = s.whey := rfl
@[simp] theorem setWheel_regs (n due : Nat) (s : State) : (setWheel n due s).regs = s.regs := rfl
@[simp] theorem setWheel_lostEntries (n due : Nat) (s : State) : (setWheel n due s).lostEntries = s.lostEntries := rfl
@[simp] theorem setWheel_bank0 (n due : Nat) (s : State) : (setWheel n due s).bank0 = s.bank0 := rfl
@[simp] theorem setWheel_bank1 (n due : Nat) (s : State) : (setWheel n due s).bank1 = s.bank1 := rfl
@[simp] theorem setWheel_epoch (n due : Nat) (s : State) : (setWheel n due s).epoch = s.epoch := rfl
@[simp] theorem setWheel_vat (n due : Nat) (s : State) : (setWheel n due s).vat = s.vat := rfl
@[simp] theorem setWheel_press (n due : Nat) (s : State) : (setWheel n due s).press = s.press := rfl
@[simp] theorem setWheel_descs (n due : Nat) (s : State) : (setWheel n due s).descs = s.descs := rfl
@[simp] theorem setWheel_cave (n due : Nat) (s : State) : (setWheel n due s).cave = s.cave := rfl
@[simp] theorem setWheel_time (n due : Nat) (s : State) : (setWheel n due s).time = s.time := rfl
@[simp] theorem setWheel_triad (n due : Nat) (s : State) : (setWheel n due s).triad = s.triad := rfl
@[simp] theorem setWheel_scraper (n due : Nat) (s : State) : (setWheel n due s).scraper = s.scraper := rfl
@[simp] theorem setWheel_qm (n due : Nat) (s : State) : (setWheel n due s).qm = s.qm := rfl
@[simp] theorem setWheel_sched (n due : Nat) (s : State) : (setWheel n due s).sched = { s.sched with wheel := mset 0 s.sched.wheel n due, wheelAt := if due = 0 then mdel s.sched.wheelAt n else mput s.sched.wheelAt n (wheelPlace s.now due) } := rfl
@[simp] theorem setWheel_roll (n due : Nat) (s : State) : (setWheel n due s).roll = s.roll := rfl
@[simp] theorem setWheel_pipes (n due : Nat) (s : State) : (setWheel n due s).pipes = s.pipes := rfl
@[simp] theorem setWheel_macs (n due : Nat) (s : State) : (setWheel n due s).macs = s.macs := rfl
@[simp] theorem setWheel_enqPath (n due : Nat) (s : State) : (setWheel n due s).enqPath = s.enqPath := rfl
@[simp] theorem setWheel_portStats (n due : Nat) (s : State) : (setWheel n due s).portStats = s.portStats := rfl
@[simp] theorem setWheel_out (n due : Nat) (s : State) : (setWheel n due s).out = s.out := rfl
@[simp] theorem setWheel_mirror (n due : Nat) (s : State) : (setWheel n due s).mirror = s.mirror := rfl
@[simp] theorem setWheel_tree (n due : Nat) (s : State) : (setWheel n due s).tree = s.tree := rfl
@[simp] theorem setWheel_l2 (n due : Nat) (s : State) : (setWheel n due s).l2 = s.l2 := rfl
@[simp] theorem setWheel_routes (n due : Nat) (s : State) : (setWheel n due s).routes = s.routes := rfl
@[simp] theorem setWheel_flows (n due : Nat) (s : State) : (setWheel n due s).flows = s.flows := rfl
@[simp] theorem setWheel_power (n due : Nat) (s : State) : (setWheel n due s).power = s.power := rfl
@[simp] theorem setWheel_lanes (n due : Nat) (s : State) : (setWheel n due s).lanes = s.lanes := rfl
@[simp] theorem setWheel_tilePll (n due : Nat) (s : State) : (setWheel n due s).tilePll = s.tilePll := rfl
@[simp] theorem setWheel_fabric (n due : Nat) (s : State) : (setWheel n due s).fabric = s.fabric := rfl
@[simp] theorem setWheel_perf (n due : Nat) (s : State) : (setWheel n due s).perf = s.perf := rfl
@[simp] theorem setWheel_i3c (n due : Nat) (s : State) : (setWheel n due s).i3c = s.i3c := rfl
@[simp] theorem setWheel_ctl (n due : Nat) (s : State) : (setWheel n due s).ctl = s.ctl := rfl
@[simp] theorem setWheel_flash (n due : Nat) (s : State) : (setWheel n due s).flash = s.flash := rfl
@[simp] theorem setWheel_boot (n due : Nat) (s : State) : (setWheel n due s).boot = s.boot := rfl
@[simp] theorem setWheel_upd (n due : Nat) (s : State) : (setWheel n due s).upd = s.upd := rfl
@[simp] theorem setWheel_sensor (n due : Nat) (s : State) : (setWheel n due s).sensor = s.sensor := rfl

/-! ## setGates -/

@[simp] theorem setGates_pending (n : Nat) (g : GateRun) (s : State) : (setGates n g s).pending = s.pending := rfl
@[simp] theorem setGates_freeCtr (n : Nat) (g : GateRun) (s : State) : (setGates n g s).freeCtr = s.freeCtr := rfl
@[simp] theorem setGates_now (n : Nat) (g : GateRun) (s : State) : (setGates n g s).now = s.now := rfl
@[simp] theorem setGates_engines (n : Nat) (g : GateRun) (s : State) : (setGates n g s).engines = s.engines := rfl
@[simp] theorem setGates_ledger (n : Nat) (g : GateRun) (s : State) : (setGates n g s).ledger = s.ledger := rfl
@[simp] theorem setGates_whey (n : Nat) (g : GateRun) (s : State) : (setGates n g s).whey = s.whey := rfl
@[simp] theorem setGates_regs (n : Nat) (g : GateRun) (s : State) : (setGates n g s).regs = s.regs := rfl
@[simp] theorem setGates_lostEntries (n : Nat) (g : GateRun) (s : State) : (setGates n g s).lostEntries = s.lostEntries := rfl
@[simp] theorem setGates_bank0 (n : Nat) (g : GateRun) (s : State) : (setGates n g s).bank0 = s.bank0 := rfl
@[simp] theorem setGates_bank1 (n : Nat) (g : GateRun) (s : State) : (setGates n g s).bank1 = s.bank1 := rfl
@[simp] theorem setGates_epoch (n : Nat) (g : GateRun) (s : State) : (setGates n g s).epoch = s.epoch := rfl
@[simp] theorem setGates_vat (n : Nat) (g : GateRun) (s : State) : (setGates n g s).vat = s.vat := rfl
@[simp] theorem setGates_press (n : Nat) (g : GateRun) (s : State) : (setGates n g s).press = s.press := rfl
@[simp] theorem setGates_descs (n : Nat) (g : GateRun) (s : State) : (setGates n g s).descs = s.descs := rfl
@[simp] theorem setGates_cave (n : Nat) (g : GateRun) (s : State) : (setGates n g s).cave = s.cave := rfl
@[simp] theorem setGates_time (n : Nat) (g : GateRun) (s : State) : (setGates n g s).time = s.time := rfl
@[simp] theorem setGates_triad (n : Nat) (g : GateRun) (s : State) : (setGates n g s).triad = s.triad := rfl
@[simp] theorem setGates_scraper (n : Nat) (g : GateRun) (s : State) : (setGates n g s).scraper = s.scraper := rfl
@[simp] theorem setGates_qm (n : Nat) (g : GateRun) (s : State) : (setGates n g s).qm = s.qm := rfl
@[simp] theorem setGates_sched (n : Nat) (g : GateRun) (s : State) : (setGates n g s).sched = { s.sched with gates := mset {} s.sched.gates n g } := rfl
@[simp] theorem setGates_roll (n : Nat) (g : GateRun) (s : State) : (setGates n g s).roll = s.roll := rfl
@[simp] theorem setGates_pipes (n : Nat) (g : GateRun) (s : State) : (setGates n g s).pipes = s.pipes := rfl
@[simp] theorem setGates_macs (n : Nat) (g : GateRun) (s : State) : (setGates n g s).macs = s.macs := rfl
@[simp] theorem setGates_enqPath (n : Nat) (g : GateRun) (s : State) : (setGates n g s).enqPath = s.enqPath := rfl
@[simp] theorem setGates_portStats (n : Nat) (g : GateRun) (s : State) : (setGates n g s).portStats = s.portStats := rfl
@[simp] theorem setGates_out (n : Nat) (g : GateRun) (s : State) : (setGates n g s).out = s.out := rfl
@[simp] theorem setGates_mirror (n : Nat) (g : GateRun) (s : State) : (setGates n g s).mirror = s.mirror := rfl
@[simp] theorem setGates_tree (n : Nat) (g : GateRun) (s : State) : (setGates n g s).tree = s.tree := rfl
@[simp] theorem setGates_l2 (n : Nat) (g : GateRun) (s : State) : (setGates n g s).l2 = s.l2 := rfl
@[simp] theorem setGates_routes (n : Nat) (g : GateRun) (s : State) : (setGates n g s).routes = s.routes := rfl
@[simp] theorem setGates_flows (n : Nat) (g : GateRun) (s : State) : (setGates n g s).flows = s.flows := rfl
@[simp] theorem setGates_power (n : Nat) (g : GateRun) (s : State) : (setGates n g s).power = s.power := rfl
@[simp] theorem setGates_lanes (n : Nat) (g : GateRun) (s : State) : (setGates n g s).lanes = s.lanes := rfl
@[simp] theorem setGates_tilePll (n : Nat) (g : GateRun) (s : State) : (setGates n g s).tilePll = s.tilePll := rfl
@[simp] theorem setGates_fabric (n : Nat) (g : GateRun) (s : State) : (setGates n g s).fabric = s.fabric := rfl
@[simp] theorem setGates_perf (n : Nat) (g : GateRun) (s : State) : (setGates n g s).perf = s.perf := rfl
@[simp] theorem setGates_i3c (n : Nat) (g : GateRun) (s : State) : (setGates n g s).i3c = s.i3c := rfl
@[simp] theorem setGates_ctl (n : Nat) (g : GateRun) (s : State) : (setGates n g s).ctl = s.ctl := rfl
@[simp] theorem setGates_flash (n : Nat) (g : GateRun) (s : State) : (setGates n g s).flash = s.flash := rfl
@[simp] theorem setGates_boot (n : Nat) (g : GateRun) (s : State) : (setGates n g s).boot = s.boot := rfl
@[simp] theorem setGates_upd (n : Nat) (g : GateRun) (s : State) : (setGates n g s).upd = s.upd := rfl
@[simp] theorem setGates_sensor (n : Nat) (g : GateRun) (s : State) : (setGates n g s).sensor = s.sensor := rfl

/-! ## setFrags -/

@[simp] theorem setFrags_pending (m : SMap FragEntry) (s : State) : (setFrags m s).pending = s.pending := rfl
@[simp] theorem setFrags_freeCtr (m : SMap FragEntry) (s : State) : (setFrags m s).freeCtr = s.freeCtr := rfl
@[simp] theorem setFrags_now (m : SMap FragEntry) (s : State) : (setFrags m s).now = s.now := rfl
@[simp] theorem setFrags_engines (m : SMap FragEntry) (s : State) : (setFrags m s).engines = s.engines := rfl
@[simp] theorem setFrags_ledger (m : SMap FragEntry) (s : State) : (setFrags m s).ledger = s.ledger := rfl
@[simp] theorem setFrags_whey (m : SMap FragEntry) (s : State) : (setFrags m s).whey = s.whey := rfl
@[simp] theorem setFrags_regs (m : SMap FragEntry) (s : State) : (setFrags m s).regs = s.regs := rfl
@[simp] theorem setFrags_lostEntries (m : SMap FragEntry) (s : State) : (setFrags m s).lostEntries = s.lostEntries := rfl
@[simp] theorem setFrags_bank0 (m : SMap FragEntry) (s : State) : (setFrags m s).bank0 = s.bank0 := rfl
@[simp] theorem setFrags_bank1 (m : SMap FragEntry) (s : State) : (setFrags m s).bank1 = s.bank1 := rfl
@[simp] theorem setFrags_epoch (m : SMap FragEntry) (s : State) : (setFrags m s).epoch = s.epoch := rfl
@[simp] theorem setFrags_vat (m : SMap FragEntry) (s : State) : (setFrags m s).vat = s.vat := rfl
@[simp] theorem setFrags_press (m : SMap FragEntry) (s : State) : (setFrags m s).press = s.press := rfl
@[simp] theorem setFrags_descs (m : SMap FragEntry) (s : State) : (setFrags m s).descs = s.descs := rfl
@[simp] theorem setFrags_cave (m : SMap FragEntry) (s : State) : (setFrags m s).cave = s.cave := rfl
@[simp] theorem setFrags_time (m : SMap FragEntry) (s : State) : (setFrags m s).time = s.time := rfl
@[simp] theorem setFrags_triad (m : SMap FragEntry) (s : State) : (setFrags m s).triad = s.triad := rfl
@[simp] theorem setFrags_scraper (m : SMap FragEntry) (s : State) : (setFrags m s).scraper = s.scraper := rfl
@[simp] theorem setFrags_qm (m : SMap FragEntry) (s : State) : (setFrags m s).qm = s.qm := rfl
@[simp] theorem setFrags_sched (m : SMap FragEntry) (s : State) : (setFrags m s).sched = s.sched := rfl
@[simp] theorem setFrags_roll (m : SMap FragEntry) (s : State) : (setFrags m s).roll = s.roll := rfl
@[simp] theorem setFrags_pipes (m : SMap FragEntry) (s : State) : (setFrags m s).pipes = s.pipes := rfl
@[simp] theorem setFrags_macs (m : SMap FragEntry) (s : State) : (setFrags m s).macs = s.macs := rfl
@[simp] theorem setFrags_enqPath (m : SMap FragEntry) (s : State) : (setFrags m s).enqPath = s.enqPath := rfl
@[simp] theorem setFrags_portStats (m : SMap FragEntry) (s : State) : (setFrags m s).portStats = s.portStats := rfl
@[simp] theorem setFrags_out (m : SMap FragEntry) (s : State) : (setFrags m s).out = s.out := rfl
@[simp] theorem setFrags_mirror (m : SMap FragEntry) (s : State) : (setFrags m s).mirror = s.mirror := rfl
@[simp] theorem setFrags_tree (m : SMap FragEntry) (s : State) : (setFrags m s).tree = { s.tree with frags := m } := rfl
@[simp] theorem setFrags_l2 (m : SMap FragEntry) (s : State) : (setFrags m s).l2 = s.l2 := rfl
@[simp] theorem setFrags_routes (m : SMap FragEntry) (s : State) : (setFrags m s).routes = s.routes := rfl
@[simp] theorem setFrags_flows (m : SMap FragEntry) (s : State) : (setFrags m s).flows = s.flows := rfl
@[simp] theorem setFrags_power (m : SMap FragEntry) (s : State) : (setFrags m s).power = s.power := rfl
@[simp] theorem setFrags_lanes (m : SMap FragEntry) (s : State) : (setFrags m s).lanes = s.lanes := rfl
@[simp] theorem setFrags_tilePll (m : SMap FragEntry) (s : State) : (setFrags m s).tilePll = s.tilePll := rfl
@[simp] theorem setFrags_fabric (m : SMap FragEntry) (s : State) : (setFrags m s).fabric = s.fabric := rfl
@[simp] theorem setFrags_perf (m : SMap FragEntry) (s : State) : (setFrags m s).perf = s.perf := rfl
@[simp] theorem setFrags_i3c (m : SMap FragEntry) (s : State) : (setFrags m s).i3c = s.i3c := rfl
@[simp] theorem setFrags_ctl (m : SMap FragEntry) (s : State) : (setFrags m s).ctl = s.ctl := rfl
@[simp] theorem setFrags_flash (m : SMap FragEntry) (s : State) : (setFrags m s).flash = s.flash := rfl
@[simp] theorem setFrags_boot (m : SMap FragEntry) (s : State) : (setFrags m s).boot = s.boot := rfl
@[simp] theorem setFrags_upd (m : SMap FragEntry) (s : State) : (setFrags m s).upd = s.upd := rfl
@[simp] theorem setFrags_sensor (m : SMap FragEntry) (s : State) : (setFrags m s).sensor = s.sensor := rfl

/-! ## setL2 -/

@[simp] theorem setL2_pending (m : SMap L2Entry) (s : State) : (setL2 m s).pending = s.pending := rfl
@[simp] theorem setL2_freeCtr (m : SMap L2Entry) (s : State) : (setL2 m s).freeCtr = s.freeCtr := rfl
@[simp] theorem setL2_now (m : SMap L2Entry) (s : State) : (setL2 m s).now = s.now := rfl
@[simp] theorem setL2_engines (m : SMap L2Entry) (s : State) : (setL2 m s).engines = s.engines := rfl
@[simp] theorem setL2_ledger (m : SMap L2Entry) (s : State) : (setL2 m s).ledger = s.ledger := rfl
@[simp] theorem setL2_whey (m : SMap L2Entry) (s : State) : (setL2 m s).whey = s.whey := rfl
@[simp] theorem setL2_regs (m : SMap L2Entry) (s : State) : (setL2 m s).regs = s.regs := rfl
@[simp] theorem setL2_lostEntries (m : SMap L2Entry) (s : State) : (setL2 m s).lostEntries = s.lostEntries := rfl
@[simp] theorem setL2_bank0 (m : SMap L2Entry) (s : State) : (setL2 m s).bank0 = s.bank0 := rfl
@[simp] theorem setL2_bank1 (m : SMap L2Entry) (s : State) : (setL2 m s).bank1 = s.bank1 := rfl
@[simp] theorem setL2_epoch (m : SMap L2Entry) (s : State) : (setL2 m s).epoch = s.epoch := rfl
@[simp] theorem setL2_vat (m : SMap L2Entry) (s : State) : (setL2 m s).vat = s.vat := rfl
@[simp] theorem setL2_press (m : SMap L2Entry) (s : State) : (setL2 m s).press = s.press := rfl
@[simp] theorem setL2_descs (m : SMap L2Entry) (s : State) : (setL2 m s).descs = s.descs := rfl
@[simp] theorem setL2_cave (m : SMap L2Entry) (s : State) : (setL2 m s).cave = s.cave := rfl
@[simp] theorem setL2_time (m : SMap L2Entry) (s : State) : (setL2 m s).time = s.time := rfl
@[simp] theorem setL2_triad (m : SMap L2Entry) (s : State) : (setL2 m s).triad = s.triad := rfl
@[simp] theorem setL2_scraper (m : SMap L2Entry) (s : State) : (setL2 m s).scraper = s.scraper := rfl
@[simp] theorem setL2_qm (m : SMap L2Entry) (s : State) : (setL2 m s).qm = s.qm := rfl
@[simp] theorem setL2_sched (m : SMap L2Entry) (s : State) : (setL2 m s).sched = s.sched := rfl
@[simp] theorem setL2_roll (m : SMap L2Entry) (s : State) : (setL2 m s).roll = s.roll := rfl
@[simp] theorem setL2_pipes (m : SMap L2Entry) (s : State) : (setL2 m s).pipes = s.pipes := rfl
@[simp] theorem setL2_macs (m : SMap L2Entry) (s : State) : (setL2 m s).macs = s.macs := rfl
@[simp] theorem setL2_enqPath (m : SMap L2Entry) (s : State) : (setL2 m s).enqPath = s.enqPath := rfl
@[simp] theorem setL2_portStats (m : SMap L2Entry) (s : State) : (setL2 m s).portStats = s.portStats := rfl
@[simp] theorem setL2_out (m : SMap L2Entry) (s : State) : (setL2 m s).out = s.out := rfl
@[simp] theorem setL2_mirror (m : SMap L2Entry) (s : State) : (setL2 m s).mirror = s.mirror := rfl
@[simp] theorem setL2_tree (m : SMap L2Entry) (s : State) : (setL2 m s).tree = s.tree := rfl
@[simp] theorem setL2_l2 (m : SMap L2Entry) (s : State) : (setL2 m s).l2 = { s.l2 with entries := m } := rfl
@[simp] theorem setL2_routes (m : SMap L2Entry) (s : State) : (setL2 m s).routes = s.routes := rfl
@[simp] theorem setL2_flows (m : SMap L2Entry) (s : State) : (setL2 m s).flows = s.flows := rfl
@[simp] theorem setL2_power (m : SMap L2Entry) (s : State) : (setL2 m s).power = s.power := rfl
@[simp] theorem setL2_lanes (m : SMap L2Entry) (s : State) : (setL2 m s).lanes = s.lanes := rfl
@[simp] theorem setL2_tilePll (m : SMap L2Entry) (s : State) : (setL2 m s).tilePll = s.tilePll := rfl
@[simp] theorem setL2_fabric (m : SMap L2Entry) (s : State) : (setL2 m s).fabric = s.fabric := rfl
@[simp] theorem setL2_perf (m : SMap L2Entry) (s : State) : (setL2 m s).perf = s.perf := rfl
@[simp] theorem setL2_i3c (m : SMap L2Entry) (s : State) : (setL2 m s).i3c = s.i3c := rfl
@[simp] theorem setL2_ctl (m : SMap L2Entry) (s : State) : (setL2 m s).ctl = s.ctl := rfl
@[simp] theorem setL2_flash (m : SMap L2Entry) (s : State) : (setL2 m s).flash = s.flash := rfl
@[simp] theorem setL2_boot (m : SMap L2Entry) (s : State) : (setL2 m s).boot = s.boot := rfl
@[simp] theorem setL2_upd (m : SMap L2Entry) (s : State) : (setL2 m s).upd = s.upd := rfl
@[simp] theorem setL2_sensor (m : SMap L2Entry) (s : State) : (setL2 m s).sensor = s.sensor := rfl

/-! ## setRw -/

@[simp] theorem setRw_pending (b : Block) (r v : Nat) (s : State) : (setRw b r v s).pending = s.pending := rfl
@[simp] theorem setRw_freeCtr (b : Block) (r v : Nat) (s : State) : (setRw b r v s).freeCtr = s.freeCtr := rfl
@[simp] theorem setRw_now (b : Block) (r v : Nat) (s : State) : (setRw b r v s).now = s.now := rfl
@[simp] theorem setRw_engines (b : Block) (r v : Nat) (s : State) : (setRw b r v s).engines = s.engines := rfl
@[simp] theorem setRw_ledger (b : Block) (r v : Nat) (s : State) : (setRw b r v s).ledger = s.ledger := rfl
@[simp] theorem setRw_whey (b : Block) (r v : Nat) (s : State) : (setRw b r v s).whey = s.whey := rfl
@[simp] theorem setRw_lostEntries (b : Block) (r v : Nat) (s : State) : (setRw b r v s).lostEntries = s.lostEntries := rfl
@[simp] theorem setRw_bank0 (b : Block) (r v : Nat) (s : State) : (setRw b r v s).bank0 = s.bank0 := rfl
@[simp] theorem setRw_bank1 (b : Block) (r v : Nat) (s : State) : (setRw b r v s).bank1 = s.bank1 := rfl
@[simp] theorem setRw_epoch (b : Block) (r v : Nat) (s : State) : (setRw b r v s).epoch = s.epoch := rfl
@[simp] theorem setRw_vat (b : Block) (r v : Nat) (s : State) : (setRw b r v s).vat = s.vat := rfl
@[simp] theorem setRw_press (b : Block) (r v : Nat) (s : State) : (setRw b r v s).press = s.press := rfl
@[simp] theorem setRw_descs (b : Block) (r v : Nat) (s : State) : (setRw b r v s).descs = s.descs := rfl
@[simp] theorem setRw_cave (b : Block) (r v : Nat) (s : State) : (setRw b r v s).cave = s.cave := rfl
@[simp] theorem setRw_time (b : Block) (r v : Nat) (s : State) : (setRw b r v s).time = s.time := rfl
@[simp] theorem setRw_triad (b : Block) (r v : Nat) (s : State) : (setRw b r v s).triad = s.triad := rfl
@[simp] theorem setRw_scraper (b : Block) (r v : Nat) (s : State) : (setRw b r v s).scraper = s.scraper := rfl
@[simp] theorem setRw_qm (b : Block) (r v : Nat) (s : State) : (setRw b r v s).qm = s.qm := rfl
@[simp] theorem setRw_sched (b : Block) (r v : Nat) (s : State) : (setRw b r v s).sched = s.sched := rfl
@[simp] theorem setRw_roll (b : Block) (r v : Nat) (s : State) : (setRw b r v s).roll = s.roll := rfl
@[simp] theorem setRw_pipes (b : Block) (r v : Nat) (s : State) : (setRw b r v s).pipes = s.pipes := rfl
@[simp] theorem setRw_macs (b : Block) (r v : Nat) (s : State) : (setRw b r v s).macs = s.macs := rfl
@[simp] theorem setRw_enqPath (b : Block) (r v : Nat) (s : State) : (setRw b r v s).enqPath = s.enqPath := rfl
@[simp] theorem setRw_portStats (b : Block) (r v : Nat) (s : State) : (setRw b r v s).portStats = s.portStats := rfl
@[simp] theorem setRw_out (b : Block) (r v : Nat) (s : State) : (setRw b r v s).out = s.out := rfl
@[simp] theorem setRw_mirror (b : Block) (r v : Nat) (s : State) : (setRw b r v s).mirror = s.mirror := rfl
@[simp] theorem setRw_tree (b : Block) (r v : Nat) (s : State) : (setRw b r v s).tree = s.tree := rfl
@[simp] theorem setRw_l2 (b : Block) (r v : Nat) (s : State) : (setRw b r v s).l2 = s.l2 := rfl
@[simp] theorem setRw_routes (b : Block) (r v : Nat) (s : State) : (setRw b r v s).routes = s.routes := rfl
@[simp] theorem setRw_flows (b : Block) (r v : Nat) (s : State) : (setRw b r v s).flows = s.flows := rfl
@[simp] theorem setRw_power (b : Block) (r v : Nat) (s : State) : (setRw b r v s).power = s.power := rfl
@[simp] theorem setRw_lanes (b : Block) (r v : Nat) (s : State) : (setRw b r v s).lanes = s.lanes := rfl
@[simp] theorem setRw_tilePll (b : Block) (r v : Nat) (s : State) : (setRw b r v s).tilePll = s.tilePll := rfl
@[simp] theorem setRw_fabric (b : Block) (r v : Nat) (s : State) : (setRw b r v s).fabric = s.fabric := rfl
@[simp] theorem setRw_perf (b : Block) (r v : Nat) (s : State) : (setRw b r v s).perf = s.perf := rfl
@[simp] theorem setRw_i3c (b : Block) (r v : Nat) (s : State) : (setRw b r v s).i3c = s.i3c := rfl
@[simp] theorem setRw_ctl (b : Block) (r v : Nat) (s : State) : (setRw b r v s).ctl = s.ctl := rfl
@[simp] theorem setRw_flash (b : Block) (r v : Nat) (s : State) : (setRw b r v s).flash = s.flash := rfl
@[simp] theorem setRw_boot (b : Block) (r v : Nat) (s : State) : (setRw b r v s).boot = s.boot := rfl
@[simp] theorem setRw_upd (b : Block) (r v : Nat) (s : State) : (setRw b r v s).upd = s.upd := rfl
@[simp] theorem setRw_sensor (b : Block) (r v : Nat) (s : State) : (setRw b r v s).sensor = s.sensor := rfl

/-! ## clearParity -/

@[simp] theorem clearParity_pending (b : Block) (r : Nat) (s : State) : (clearParity b r s).pending = s.pending := rfl
@[simp] theorem clearParity_freeCtr (b : Block) (r : Nat) (s : State) : (clearParity b r s).freeCtr = s.freeCtr := rfl
@[simp] theorem clearParity_now (b : Block) (r : Nat) (s : State) : (clearParity b r s).now = s.now := rfl
@[simp] theorem clearParity_engines (b : Block) (r : Nat) (s : State) : (clearParity b r s).engines = s.engines := rfl
@[simp] theorem clearParity_ledger (b : Block) (r : Nat) (s : State) : (clearParity b r s).ledger = s.ledger := rfl
@[simp] theorem clearParity_whey (b : Block) (r : Nat) (s : State) : (clearParity b r s).whey = s.whey := rfl
@[simp] theorem clearParity_lostEntries (b : Block) (r : Nat) (s : State) : (clearParity b r s).lostEntries = s.lostEntries := rfl
@[simp] theorem clearParity_bank0 (b : Block) (r : Nat) (s : State) : (clearParity b r s).bank0 = s.bank0 := rfl
@[simp] theorem clearParity_bank1 (b : Block) (r : Nat) (s : State) : (clearParity b r s).bank1 = s.bank1 := rfl
@[simp] theorem clearParity_epoch (b : Block) (r : Nat) (s : State) : (clearParity b r s).epoch = s.epoch := rfl
@[simp] theorem clearParity_vat (b : Block) (r : Nat) (s : State) : (clearParity b r s).vat = s.vat := rfl
@[simp] theorem clearParity_press (b : Block) (r : Nat) (s : State) : (clearParity b r s).press = s.press := rfl
@[simp] theorem clearParity_descs (b : Block) (r : Nat) (s : State) : (clearParity b r s).descs = s.descs := rfl
@[simp] theorem clearParity_cave (b : Block) (r : Nat) (s : State) : (clearParity b r s).cave = s.cave := rfl
@[simp] theorem clearParity_time (b : Block) (r : Nat) (s : State) : (clearParity b r s).time = s.time := rfl
@[simp] theorem clearParity_triad (b : Block) (r : Nat) (s : State) : (clearParity b r s).triad = s.triad := rfl
@[simp] theorem clearParity_scraper (b : Block) (r : Nat) (s : State) : (clearParity b r s).scraper = s.scraper := rfl
@[simp] theorem clearParity_qm (b : Block) (r : Nat) (s : State) : (clearParity b r s).qm = s.qm := rfl
@[simp] theorem clearParity_sched (b : Block) (r : Nat) (s : State) : (clearParity b r s).sched = s.sched := rfl
@[simp] theorem clearParity_roll (b : Block) (r : Nat) (s : State) : (clearParity b r s).roll = s.roll := rfl
@[simp] theorem clearParity_pipes (b : Block) (r : Nat) (s : State) : (clearParity b r s).pipes = s.pipes := rfl
@[simp] theorem clearParity_macs (b : Block) (r : Nat) (s : State) : (clearParity b r s).macs = s.macs := rfl
@[simp] theorem clearParity_enqPath (b : Block) (r : Nat) (s : State) : (clearParity b r s).enqPath = s.enqPath := rfl
@[simp] theorem clearParity_portStats (b : Block) (r : Nat) (s : State) : (clearParity b r s).portStats = s.portStats := rfl
@[simp] theorem clearParity_out (b : Block) (r : Nat) (s : State) : (clearParity b r s).out = s.out := rfl
@[simp] theorem clearParity_mirror (b : Block) (r : Nat) (s : State) : (clearParity b r s).mirror = s.mirror := rfl
@[simp] theorem clearParity_tree (b : Block) (r : Nat) (s : State) : (clearParity b r s).tree = s.tree := rfl
@[simp] theorem clearParity_l2 (b : Block) (r : Nat) (s : State) : (clearParity b r s).l2 = s.l2 := rfl
@[simp] theorem clearParity_routes (b : Block) (r : Nat) (s : State) : (clearParity b r s).routes = s.routes := rfl
@[simp] theorem clearParity_flows (b : Block) (r : Nat) (s : State) : (clearParity b r s).flows = s.flows := rfl
@[simp] theorem clearParity_power (b : Block) (r : Nat) (s : State) : (clearParity b r s).power = s.power := rfl
@[simp] theorem clearParity_lanes (b : Block) (r : Nat) (s : State) : (clearParity b r s).lanes = s.lanes := rfl
@[simp] theorem clearParity_tilePll (b : Block) (r : Nat) (s : State) : (clearParity b r s).tilePll = s.tilePll := rfl
@[simp] theorem clearParity_fabric (b : Block) (r : Nat) (s : State) : (clearParity b r s).fabric = s.fabric := rfl
@[simp] theorem clearParity_perf (b : Block) (r : Nat) (s : State) : (clearParity b r s).perf = s.perf := rfl
@[simp] theorem clearParity_i3c (b : Block) (r : Nat) (s : State) : (clearParity b r s).i3c = s.i3c := rfl
@[simp] theorem clearParity_ctl (b : Block) (r : Nat) (s : State) : (clearParity b r s).ctl = s.ctl := rfl
@[simp] theorem clearParity_flash (b : Block) (r : Nat) (s : State) : (clearParity b r s).flash = s.flash := rfl
@[simp] theorem clearParity_boot (b : Block) (r : Nat) (s : State) : (clearParity b r s).boot = s.boot := rfl
@[simp] theorem clearParity_upd (b : Block) (r : Nat) (s : State) : (clearParity b r s).upd = s.upd := rfl
@[simp] theorem clearParity_sensor (b : Block) (r : Nat) (s : State) : (clearParity b r s).sensor = s.sensor := rfl

/-! ## emit -/

@[simp] theorem emit_pending (o : Output) (s : State) : (emit o s).pending = s.pending := rfl
@[simp] theorem emit_freeCtr (o : Output) (s : State) : (emit o s).freeCtr = s.freeCtr := rfl
@[simp] theorem emit_now (o : Output) (s : State) : (emit o s).now = s.now := rfl
@[simp] theorem emit_engines (o : Output) (s : State) : (emit o s).engines = s.engines := rfl
@[simp] theorem emit_ledger (o : Output) (s : State) : (emit o s).ledger = s.ledger := rfl
@[simp] theorem emit_whey (o : Output) (s : State) : (emit o s).whey = s.whey := rfl
@[simp] theorem emit_regs (o : Output) (s : State) : (emit o s).regs = s.regs := rfl
@[simp] theorem emit_lostEntries (o : Output) (s : State) : (emit o s).lostEntries = s.lostEntries := rfl
@[simp] theorem emit_bank0 (o : Output) (s : State) : (emit o s).bank0 = s.bank0 := rfl
@[simp] theorem emit_bank1 (o : Output) (s : State) : (emit o s).bank1 = s.bank1 := rfl
@[simp] theorem emit_epoch (o : Output) (s : State) : (emit o s).epoch = s.epoch := rfl
@[simp] theorem emit_vat (o : Output) (s : State) : (emit o s).vat = s.vat := rfl
@[simp] theorem emit_press (o : Output) (s : State) : (emit o s).press = s.press := rfl
@[simp] theorem emit_descs (o : Output) (s : State) : (emit o s).descs = s.descs := rfl
@[simp] theorem emit_cave (o : Output) (s : State) : (emit o s).cave = s.cave := rfl
@[simp] theorem emit_time (o : Output) (s : State) : (emit o s).time = s.time := rfl
@[simp] theorem emit_triad (o : Output) (s : State) : (emit o s).triad = s.triad := rfl
@[simp] theorem emit_scraper (o : Output) (s : State) : (emit o s).scraper = s.scraper := rfl
@[simp] theorem emit_qm (o : Output) (s : State) : (emit o s).qm = s.qm := rfl
@[simp] theorem emit_sched (o : Output) (s : State) : (emit o s).sched = s.sched := rfl
@[simp] theorem emit_roll (o : Output) (s : State) : (emit o s).roll = s.roll := rfl
@[simp] theorem emit_pipes (o : Output) (s : State) : (emit o s).pipes = s.pipes := rfl
@[simp] theorem emit_macs (o : Output) (s : State) : (emit o s).macs = s.macs := rfl
@[simp] theorem emit_enqPath (o : Output) (s : State) : (emit o s).enqPath = s.enqPath := rfl
@[simp] theorem emit_portStats (o : Output) (s : State) : (emit o s).portStats = s.portStats := rfl
@[simp] theorem emit_out (o : Output) (s : State) : (emit o s).out = s.out ++ [o] := rfl
@[simp] theorem emit_mirror (o : Output) (s : State) : (emit o s).mirror = s.mirror := rfl
@[simp] theorem emit_tree (o : Output) (s : State) : (emit o s).tree = s.tree := rfl
@[simp] theorem emit_l2 (o : Output) (s : State) : (emit o s).l2 = s.l2 := rfl
@[simp] theorem emit_routes (o : Output) (s : State) : (emit o s).routes = s.routes := rfl
@[simp] theorem emit_flows (o : Output) (s : State) : (emit o s).flows = s.flows := rfl
@[simp] theorem emit_power (o : Output) (s : State) : (emit o s).power = s.power := rfl
@[simp] theorem emit_lanes (o : Output) (s : State) : (emit o s).lanes = s.lanes := rfl
@[simp] theorem emit_tilePll (o : Output) (s : State) : (emit o s).tilePll = s.tilePll := rfl
@[simp] theorem emit_fabric (o : Output) (s : State) : (emit o s).fabric = s.fabric := rfl
@[simp] theorem emit_perf (o : Output) (s : State) : (emit o s).perf = s.perf := rfl
@[simp] theorem emit_i3c (o : Output) (s : State) : (emit o s).i3c = s.i3c := rfl
@[simp] theorem emit_ctl (o : Output) (s : State) : (emit o s).ctl = s.ctl := rfl
@[simp] theorem emit_flash (o : Output) (s : State) : (emit o s).flash = s.flash := rfl
@[simp] theorem emit_boot (o : Output) (s : State) : (emit o s).boot = s.boot := rfl
@[simp] theorem emit_upd (o : Output) (s : State) : (emit o s).upd = s.upd := rfl
@[simp] theorem emit_sensor (o : Output) (s : State) : (emit o s).sensor = s.sensor := rfl

end Sys2Proof.Machine
end

