-- ==== Sys2Proof/Laws/Ops.lean ====
section
/-!
SUPPORT. What the operations every family uses leave unchanged: counting a performance event changes the performance
counters only, raising an event the ledger only, counting a drop the Whey and the counters only.
-/
namespace Sys2Proof.Machine

theorem perfCount_eq (n a : Nat) (s : State) : perfCount n a s = { s with perf := (perfCount n a s).perf } := rfl

theorem perfAddTo_eq (ev : PerfEvent) (ns : List Nat) (s : State) :
    perfAddTo ev ns s = { s with perf := (perfAddTo ev ns s).perf } := by
  induction ns generalizing s with
  | nil => rfl
  | cons n ns ih =>
    simp only [perfAddTo]
    rw [ih]
    split <;> rfl

/-- Counting an event changes the performance counters and nothing else. -/
theorem perfEvent_eq (ev : PerfEvent) (s : State) : perfEvent ev s = { s with perf := (perfEvent ev s).perf } := by
  unfold perfEvent
  split
  · rfl
  · exact perfAddTo_eq ev _ s

/-- Raising an event changes the ledger and nothing else. -/
theorem raiseAt_eq (pl : Nat × Nat) (c p x : Nat) (s : State) :
    raiseAt pl c p x s = { s with ledger := (raiseAt pl c p x s).ledger } := by
  unfold raiseAt
  split <;> rfl


@[simp] theorem perfEvent_pending (ev : PerfEvent) (s : State) : (perfEvent ev s).pending = s.pending := by rw [perfEvent_eq]
@[simp] theorem perfEvent_freeCtr (ev : PerfEvent) (s : State) : (perfEvent ev s).freeCtr = s.freeCtr := by rw [perfEvent_eq]
@[simp] theorem perfEvent_now (ev : PerfEvent) (s : State) : (perfEvent ev s).now = s.now := by rw [perfEvent_eq]
@[simp] theorem perfEvent_engines (ev : PerfEvent) (s : State) : (perfEvent ev s).engines = s.engines := by rw [perfEvent_eq]
@[simp] theorem perfEvent_ledger (ev : PerfEvent) (s : State) : (perfEvent ev s).ledger = s.ledger := by rw [perfEvent_eq]
@[simp] theorem perfEvent_whey (ev : PerfEvent) (s : State) : (perfEvent ev s).whey = s.whey := by rw [perfEvent_eq]
@[simp] theorem perfEvent_regs (ev : PerfEvent) (s : State) : (perfEvent ev s).regs = s.regs := by rw [perfEvent_eq]
@[simp] theorem perfEvent_lostEntries (ev : PerfEvent) (s : State) : (perfEvent ev s).lostEntries = s.lostEntries := by rw [perfEvent_eq]
@[simp] theorem perfEvent_bank0 (ev : PerfEvent) (s : State) : (perfEvent ev s).bank0 = s.bank0 := by rw [perfEvent_eq]
@[simp] theorem perfEvent_bank1 (ev : PerfEvent) (s : State) : (perfEvent ev s).bank1 = s.bank1 := by rw [perfEvent_eq]
@[simp] theorem perfEvent_epoch (ev : PerfEvent) (s : State) : (perfEvent ev s).epoch = s.epoch := by rw [perfEvent_eq]
@[simp] theorem perfEvent_vat (ev : PerfEvent) (s : State) : (perfEvent ev s).vat = s.vat := by rw [perfEvent_eq]
@[simp] theorem perfEvent_press (ev : PerfEvent) (s : State) : (perfEvent ev s).press = s.press := by rw [perfEvent_eq]
@[simp] theorem perfEvent_descs (ev : PerfEvent) (s : State) : (perfEvent ev s).descs = s.descs := by rw [perfEvent_eq]
@[simp] theorem perfEvent_cave (ev : PerfEvent) (s : State) : (perfEvent ev s).cave = s.cave := by rw [perfEvent_eq]
@[simp] theorem perfEvent_time (ev : PerfEvent) (s : State) : (perfEvent ev s).time = s.time := by rw [perfEvent_eq]
@[simp] theorem perfEvent_triad (ev : PerfEvent) (s : State) : (perfEvent ev s).triad = s.triad := by rw [perfEvent_eq]
@[simp] theorem perfEvent_scraper (ev : PerfEvent) (s : State) : (perfEvent ev s).scraper = s.scraper := by rw [perfEvent_eq]
@[simp] theorem perfEvent_qm (ev : PerfEvent) (s : State) : (perfEvent ev s).qm = s.qm := by rw [perfEvent_eq]
@[simp] theorem perfEvent_sched (ev : PerfEvent) (s : State) : (perfEvent ev s).sched = s.sched := by rw [perfEvent_eq]
@[simp] theorem perfEvent_roll (ev : PerfEvent) (s : State) : (perfEvent ev s).roll = s.roll := by rw [perfEvent_eq]
@[simp] theorem perfEvent_pipes (ev : PerfEvent) (s : State) : (perfEvent ev s).pipes = s.pipes := by rw [perfEvent_eq]
@[simp] theorem perfEvent_macs (ev : PerfEvent) (s : State) : (perfEvent ev s).macs = s.macs := by rw [perfEvent_eq]
@[simp] theorem perfEvent_enqPath (ev : PerfEvent) (s : State) : (perfEvent ev s).enqPath = s.enqPath := by rw [perfEvent_eq]
@[simp] theorem perfEvent_portStats (ev : PerfEvent) (s : State) : (perfEvent ev s).portStats = s.portStats := by rw [perfEvent_eq]
@[simp] theorem perfEvent_out (ev : PerfEvent) (s : State) : (perfEvent ev s).out = s.out := by rw [perfEvent_eq]
@[simp] theorem perfEvent_mirror (ev : PerfEvent) (s : State) : (perfEvent ev s).mirror = s.mirror := by rw [perfEvent_eq]
@[simp] theorem perfEvent_tree (ev : PerfEvent) (s : State) : (perfEvent ev s).tree = s.tree := by rw [perfEvent_eq]
@[simp] theorem perfEvent_l2 (ev : PerfEvent) (s : State) : (perfEvent ev s).l2 = s.l2 := by rw [perfEvent_eq]
@[simp] theorem perfEvent_routes (ev : PerfEvent) (s : State) : (perfEvent ev s).routes = s.routes := by rw [perfEvent_eq]
@[simp] theorem perfEvent_flows (ev : PerfEvent) (s : State) : (perfEvent ev s).flows = s.flows := by rw [perfEvent_eq]
@[simp] theorem perfEvent_power (ev : PerfEvent) (s : State) : (perfEvent ev s).power = s.power := by rw [perfEvent_eq]
@[simp] theorem perfEvent_lanes (ev : PerfEvent) (s : State) : (perfEvent ev s).lanes = s.lanes := by rw [perfEvent_eq]
@[simp] theorem perfEvent_tilePll (ev : PerfEvent) (s : State) : (perfEvent ev s).tilePll = s.tilePll := by rw [perfEvent_eq]
@[simp] theorem perfEvent_fabric (ev : PerfEvent) (s : State) : (perfEvent ev s).fabric = s.fabric := by rw [perfEvent_eq]
@[simp] theorem perfEvent_i3c (ev : PerfEvent) (s : State) : (perfEvent ev s).i3c = s.i3c := by rw [perfEvent_eq]
@[simp] theorem perfEvent_ctl (ev : PerfEvent) (s : State) : (perfEvent ev s).ctl = s.ctl := by rw [perfEvent_eq]
@[simp] theorem perfEvent_flash (ev : PerfEvent) (s : State) : (perfEvent ev s).flash = s.flash := by rw [perfEvent_eq]
@[simp] theorem perfEvent_boot (ev : PerfEvent) (s : State) : (perfEvent ev s).boot = s.boot := by rw [perfEvent_eq]
@[simp] theorem perfEvent_upd (ev : PerfEvent) (s : State) : (perfEvent ev s).upd = s.upd := by rw [perfEvent_eq]
@[simp] theorem perfEvent_sensor (ev : PerfEvent) (s : State) : (perfEvent ev s).sensor = s.sensor := by rw [perfEvent_eq]

/-- Counting drops changes the Whey and the performance counters and nothing else. -/
theorem wheyN_eq (r n p : Nat) (s : State) :
    wheyN r n p s = { s with whey := (wheyN r n p s).whey, perf := (wheyN r n p s).perf } := by
  by_cases h : (!bitOf s.power.on 13) = true
  · simp only [wheyN, h, if_true]
  · simp only [wheyN, h, Bool.false_eq_true, if_false]
    conv => lhs; rw [perfEvent_eq]
    simp

@[simp] theorem raiseAt_pending (pl : Nat × Nat) (c p x : Nat) (s : State) : (raiseAt pl c p x s).pending = s.pending := by rw [raiseAt_eq]
@[simp] theorem raiseAt_freeCtr (pl : Nat × Nat) (c p x : Nat) (s : State) : (raiseAt pl c p x s).freeCtr = s.freeCtr := by rw [raiseAt_eq]
@[simp] theorem raiseAt_now (pl : Nat × Nat) (c p x : Nat) (s : State) : (raiseAt pl c p x s).now = s.now := by rw [raiseAt_eq]
@[simp] theorem raiseAt_engines (pl : Nat × Nat) (c p x : Nat) (s : State) : (raiseAt pl c p x s).engines = s.engines := by rw [raiseAt_eq]
@[simp] theorem raiseAt_whey (pl : Nat × Nat) (c p x : Nat) (s : State) : (raiseAt pl c p x s).whey = s.whey := by rw [raiseAt_eq]
@[simp] theorem raiseAt_regs (pl : Nat × Nat) (c p x : Nat) (s : State) : (raiseAt pl c p x s).regs = s.regs := by rw [raiseAt_eq]
@[simp] theorem raiseAt_lostEntries (pl : Nat × Nat) (c p x : Nat) (s : State) : (raiseAt pl c p x s).lostEntries = s.lostEntries := by rw [raiseAt_eq]
@[simp] theorem raiseAt_bank0 (pl : Nat × Nat) (c p x : Nat) (s : State) : (raiseAt pl c p x s).bank0 = s.bank0 := by rw [raiseAt_eq]
@[simp] theorem raiseAt_bank1 (pl : Nat × Nat) (c p x : Nat) (s : State) : (raiseAt pl c p x s).bank1 = s.bank1 := by rw [raiseAt_eq]
@[simp] theorem raiseAt_epoch (pl : Nat × Nat) (c p x : Nat) (s : State) : (raiseAt pl c p x s).epoch = s.epoch := by rw [raiseAt_eq]
@[simp] theorem raiseAt_vat (pl : Nat × Nat) (c p x : Nat) (s : State) : (raiseAt pl c p x s).vat = s.vat := by rw [raiseAt_eq]
@[simp] theorem raiseAt_press (pl : Nat × Nat) (c p x : Nat) (s : State) : (raiseAt pl c p x s).press = s.press := by rw [raiseAt_eq]
@[simp] theorem raiseAt_descs (pl : Nat × Nat) (c p x : Nat) (s : State) : (raiseAt pl c p x s).descs = s.descs := by rw [raiseAt_eq]
@[simp] theorem raiseAt_cave (pl : Nat × Nat) (c p x : Nat) (s : State) : (raiseAt pl c p x s).cave = s.cave := by rw [raiseAt_eq]
@[simp] theorem raiseAt_time (pl : Nat × Nat) (c p x : Nat) (s : State) : (raiseAt pl c p x s).time = s.time := by rw [raiseAt_eq]
@[simp] theorem raiseAt_triad (pl : Nat × Nat) (c p x : Nat) (s : State) : (raiseAt pl c p x s).triad = s.triad := by rw [raiseAt_eq]
@[simp] theorem raiseAt_scraper (pl : Nat × Nat) (c p x : Nat) (s : State) : (raiseAt pl c p x s).scraper = s.scraper := by rw [raiseAt_eq]
@[simp] theorem raiseAt_qm (pl : Nat × Nat) (c p x : Nat) (s : State) : (raiseAt pl c p x s).qm = s.qm := by rw [raiseAt_eq]
@[simp] theorem raiseAt_sched (pl : Nat × Nat) (c p x : Nat) (s : State) : (raiseAt pl c p x s).sched = s.sched := by rw [raiseAt_eq]
@[simp] theorem raiseAt_roll (pl : Nat × Nat) (c p x : Nat) (s : State) : (raiseAt pl c p x s).roll = s.roll := by rw [raiseAt_eq]
@[simp] theorem raiseAt_pipes (pl : Nat × Nat) (c p x : Nat) (s : State) : (raiseAt pl c p x s).pipes = s.pipes := by rw [raiseAt_eq]
@[simp] theorem raiseAt_macs (pl : Nat × Nat) (c p x : Nat) (s : State) : (raiseAt pl c p x s).macs = s.macs := by rw [raiseAt_eq]
@[simp] theorem raiseAt_enqPath (pl : Nat × Nat) (c p x : Nat) (s : State) : (raiseAt pl c p x s).enqPath = s.enqPath := by rw [raiseAt_eq]
@[simp] theorem raiseAt_portStats (pl : Nat × Nat) (c p x : Nat) (s : State) : (raiseAt pl c p x s).portStats = s.portStats := by rw [raiseAt_eq]
@[simp] theorem raiseAt_out (pl : Nat × Nat) (c p x : Nat) (s : State) : (raiseAt pl c p x s).out = s.out := by rw [raiseAt_eq]
@[simp] theorem raiseAt_mirror (pl : Nat × Nat) (c p x : Nat) (s : State) : (raiseAt pl c p x s).mirror = s.mirror := by rw [raiseAt_eq]
@[simp] theorem raiseAt_tree (pl : Nat × Nat) (c p x : Nat) (s : State) : (raiseAt pl c p x s).tree = s.tree := by rw [raiseAt_eq]
@[simp] theorem raiseAt_l2 (pl : Nat × Nat) (c p x : Nat) (s : State) : (raiseAt pl c p x s).l2 = s.l2 := by rw [raiseAt_eq]
@[simp] theorem raiseAt_routes (pl : Nat × Nat) (c p x : Nat) (s : State) : (raiseAt pl c p x s).routes = s.routes := by rw [raiseAt_eq]
@[simp] theorem raiseAt_flows (pl : Nat × Nat) (c p x : Nat) (s : State) : (raiseAt pl c p x s).flows = s.flows := by rw [raiseAt_eq]
@[simp] theorem raiseAt_power (pl : Nat × Nat) (c p x : Nat) (s : State) : (raiseAt pl c p x s).power = s.power := by rw [raiseAt_eq]
@[simp] theorem raiseAt_lanes (pl : Nat × Nat) (c p x : Nat) (s : State) : (raiseAt pl c p x s).lanes = s.lanes := by rw [raiseAt_eq]
@[simp] theorem raiseAt_tilePll (pl : Nat × Nat) (c p x : Nat) (s : State) : (raiseAt pl c p x s).tilePll = s.tilePll := by rw [raiseAt_eq]
@[simp] theorem raiseAt_fabric (pl : Nat × Nat) (c p x : Nat) (s : State) : (raiseAt pl c p x s).fabric = s.fabric := by rw [raiseAt_eq]
@[simp] theorem raiseAt_perf (pl : Nat × Nat) (c p x : Nat) (s : State) : (raiseAt pl c p x s).perf = s.perf := by rw [raiseAt_eq]
@[simp] theorem raiseAt_i3c (pl : Nat × Nat) (c p x : Nat) (s : State) : (raiseAt pl c p x s).i3c = s.i3c := by rw [raiseAt_eq]
@[simp] theorem raiseAt_ctl (pl : Nat × Nat) (c p x : Nat) (s : State) : (raiseAt pl c p x s).ctl = s.ctl := by rw [raiseAt_eq]
@[simp] theorem raiseAt_flash (pl : Nat × Nat) (c p x : Nat) (s : State) : (raiseAt pl c p x s).flash = s.flash := by rw [raiseAt_eq]
@[simp] theorem raiseAt_boot (pl : Nat × Nat) (c p x : Nat) (s : State) : (raiseAt pl c p x s).boot = s.boot := by rw [raiseAt_eq]
@[simp] theorem raiseAt_upd (pl : Nat × Nat) (c p x : Nat) (s : State) : (raiseAt pl c p x s).upd = s.upd := by rw [raiseAt_eq]
@[simp] theorem raiseAt_sensor (pl : Nat × Nat) (c p x : Nat) (s : State) : (raiseAt pl c p x s).sensor = s.sensor := by rw [raiseAt_eq]

@[simp] theorem raise_pending (b : Block) (c p : Nat) (s : State) : (raise b c p s).pending = s.pending := by simp [raise]
@[simp] theorem raise_freeCtr (b : Block) (c p : Nat) (s : State) : (raise b c p s).freeCtr = s.freeCtr := by simp [raise]
@[simp] theorem raise_now (b : Block) (c p : Nat) (s : State) : (raise b c p s).now = s.now := by simp [raise]
@[simp] theorem raise_engines (b : Block) (c p : Nat) (s : State) : (raise b c p s).engines = s.engines := by simp [raise]
@[simp] theorem raise_whey (b : Block) (c p : Nat) (s : State) : (raise b c p s).whey = s.whey := by simp [raise]
@[simp] theorem raise_regs (b : Block) (c p : Nat) (s : State) : (raise b c p s).regs = s.regs := by simp [raise]
@[simp] theorem raise_lostEntries (b : Block) (c p : Nat) (s : State) : (raise b c p s).lostEntries = s.lostEntries := by simp [raise]
@[simp] theorem raise_bank0 (b : Block) (c p : Nat) (s : State) : (raise b c p s).bank0 = s.bank0 := by simp [raise]
@[simp] theorem raise_bank1 (b : Block) (c p : Nat) (s : State) : (raise b c p s).bank1 = s.bank1 := by simp [raise]
@[simp] theorem raise_epoch (b : Block) (c p : Nat) (s : State) : (raise b c p s).epoch = s.epoch := by simp [raise]
@[simp] theorem raise_vat (b : Block) (c p : Nat) (s : State) : (raise b c p s).vat = s.vat := by simp [raise]
@[simp] theorem raise_press (b : Block) (c p : Nat) (s : State) : (raise b c p s).press = s.press := by simp [raise]
@[simp] theorem raise_descs (b : Block) (c p : Nat) (s : State) : (raise b c p s).descs = s.descs := by simp [raise]
@[simp] theorem raise_cave (b : Block) (c p : Nat) (s : State) : (raise b c p s).cave = s.cave := by simp [raise]
@[simp] theorem raise_time (b : Block) (c p : Nat) (s : State) : (raise b c p s).time = s.time := by simp [raise]
@[simp] theorem raise_triad (b : Block) (c p : Nat) (s : State) : (raise b c p s).triad = s.triad := by simp [raise]
@[simp] theorem raise_scraper (b : Block) (c p : Nat) (s : State) : (raise b c p s).scraper = s.scraper := by simp [raise]
@[simp] theorem raise_qm (b : Block) (c p : Nat) (s : State) : (raise b c p s).qm = s.qm := by simp [raise]
@[simp] theorem raise_sched (b : Block) (c p : Nat) (s : State) : (raise b c p s).sched = s.sched := by simp [raise]
@[simp] theorem raise_roll (b : Block) (c p : Nat) (s : State) : (raise b c p s).roll = s.roll := by simp [raise]
@[simp] theorem raise_pipes (b : Block) (c p : Nat) (s : State) : (raise b c p s).pipes = s.pipes := by simp [raise]
@[simp] theorem raise_macs (b : Block) (c p : Nat) (s : State) : (raise b c p s).macs = s.macs := by simp [raise]
@[simp] theorem raise_enqPath (b : Block) (c p : Nat) (s : State) : (raise b c p s).enqPath = s.enqPath := by simp [raise]
@[simp] theorem raise_portStats (b : Block) (c p : Nat) (s : State) : (raise b c p s).portStats = s.portStats := by simp [raise]
@[simp] theorem raise_out (b : Block) (c p : Nat) (s : State) : (raise b c p s).out = s.out := by simp [raise]
@[simp] theorem raise_mirror (b : Block) (c p : Nat) (s : State) : (raise b c p s).mirror = s.mirror := by simp [raise]
@[simp] theorem raise_tree (b : Block) (c p : Nat) (s : State) : (raise b c p s).tree = s.tree := by simp [raise]
@[simp] theorem raise_l2 (b : Block) (c p : Nat) (s : State) : (raise b c p s).l2 = s.l2 := by simp [raise]
@[simp] theorem raise_routes (b : Block) (c p : Nat) (s : State) : (raise b c p s).routes = s.routes := by simp [raise]
@[simp] theorem raise_flows (b : Block) (c p : Nat) (s : State) : (raise b c p s).flows = s.flows := by simp [raise]
@[simp] theorem raise_power (b : Block) (c p : Nat) (s : State) : (raise b c p s).power = s.power := by simp [raise]
@[simp] theorem raise_lanes (b : Block) (c p : Nat) (s : State) : (raise b c p s).lanes = s.lanes := by simp [raise]
@[simp] theorem raise_tilePll (b : Block) (c p : Nat) (s : State) : (raise b c p s).tilePll = s.tilePll := by simp [raise]
@[simp] theorem raise_fabric (b : Block) (c p : Nat) (s : State) : (raise b c p s).fabric = s.fabric := by simp [raise]
@[simp] theorem raise_perf (b : Block) (c p : Nat) (s : State) : (raise b c p s).perf = s.perf := by simp [raise]
@[simp] theorem raise_i3c (b : Block) (c p : Nat) (s : State) : (raise b c p s).i3c = s.i3c := by simp [raise]
@[simp] theorem raise_ctl (b : Block) (c p : Nat) (s : State) : (raise b c p s).ctl = s.ctl := by simp [raise]
@[simp] theorem raise_flash (b : Block) (c p : Nat) (s : State) : (raise b c p s).flash = s.flash := by simp [raise]
@[simp] theorem raise_boot (b : Block) (c p : Nat) (s : State) : (raise b c p s).boot = s.boot := by simp [raise]
@[simp] theorem raise_upd (b : Block) (c p : Nat) (s : State) : (raise b c p s).upd = s.upd := by simp [raise]
@[simp] theorem raise_sensor (b : Block) (c p : Nat) (s : State) : (raise b c p s).sensor = s.sensor := by simp [raise]

@[simp] theorem wheyN_pending (r n p : Nat) (s : State) : (wheyN r n p s).pending = s.pending := by rw [wheyN_eq]
@[simp] theorem wheyN_freeCtr (r n p : Nat) (s : State) : (wheyN r n p s).freeCtr = s.freeCtr := by rw [wheyN_eq]
@[simp] theorem wheyN_now (r n p : Nat) (s : State) : (wheyN r n p s).now = s.now := by rw [wheyN_eq]
@[simp] theorem wheyN_engines (r n p : Nat) (s : State) : (wheyN r n p s).engines = s.engines := by rw [wheyN_eq]
@[simp] theorem wheyN_ledger (r n p : Nat) (s : State) : (wheyN r n p s).ledger = s.ledger := by rw [wheyN_eq]
@[simp] theorem wheyN_regs (r n p : Nat) (s : State) : (wheyN r n p s).regs = s.regs := by rw [wheyN_eq]
@[simp] theorem wheyN_lostEntries (r n p : Nat) (s : State) : (wheyN r n p s).lostEntries = s.lostEntries := by rw [wheyN_eq]
@[simp] theorem wheyN_bank0 (r n p : Nat) (s : State) : (wheyN r n p s).bank0 = s.bank0 := by rw [wheyN_eq]
@[simp] theorem wheyN_bank1 (r n p : Nat) (s : State) : (wheyN r n p s).bank1 = s.bank1 := by rw [wheyN_eq]
@[simp] theorem wheyN_epoch (r n p : Nat) (s : State) : (wheyN r n p s).epoch = s.epoch := by rw [wheyN_eq]
@[simp] theorem wheyN_vat (r n p : Nat) (s : State) : (wheyN r n p s).vat = s.vat := by rw [wheyN_eq]
@[simp] theorem wheyN_press (r n p : Nat) (s : State) : (wheyN r n p s).press = s.press := by rw [wheyN_eq]
@[simp] theorem wheyN_descs (r n p : Nat) (s : State) : (wheyN r n p s).descs = s.descs := by rw [wheyN_eq]
@[simp] theorem wheyN_cave (r n p : Nat) (s : State) : (wheyN r n p s).cave = s.cave := by rw [wheyN_eq]
@[simp] theorem wheyN_time (r n p : Nat) (s : State) : (wheyN r n p s).time = s.time := by rw [wheyN_eq]
@[simp] theorem wheyN_triad (r n p : Nat) (s : State) : (wheyN r n p s).triad = s.triad := by rw [wheyN_eq]
@[simp] theorem wheyN_scraper (r n p : Nat) (s : State) : (wheyN r n p s).scraper = s.scraper := by rw [wheyN_eq]
@[simp] theorem wheyN_qm (r n p : Nat) (s : State) : (wheyN r n p s).qm = s.qm := by rw [wheyN_eq]
@[simp] theorem wheyN_sched (r n p : Nat) (s : State) : (wheyN r n p s).sched = s.sched := by rw [wheyN_eq]
@[simp] theorem wheyN_roll (r n p : Nat) (s : State) : (wheyN r n p s).roll = s.roll := by rw [wheyN_eq]
@[simp] theorem wheyN_pipes (r n p : Nat) (s : State) : (wheyN r n p s).pipes = s.pipes := by rw [wheyN_eq]
@[simp] theorem wheyN_macs (r n p : Nat) (s : State) : (wheyN r n p s).macs = s.macs := by rw [wheyN_eq]
@[simp] theorem wheyN_enqPath (r n p : Nat) (s : State) : (wheyN r n p s).enqPath = s.enqPath := by rw [wheyN_eq]
@[simp] theorem wheyN_portStats (r n p : Nat) (s : State) : (wheyN r n p s).portStats = s.portStats := by rw [wheyN_eq]
@[simp] theorem wheyN_out (r n p : Nat) (s : State) : (wheyN r n p s).out = s.out := by rw [wheyN_eq]
@[simp] theorem wheyN_mirror (r n p : Nat) (s : State) : (wheyN r n p s).mirror = s.mirror := by rw [wheyN_eq]
@[simp] theorem wheyN_tree (r n p : Nat) (s : State) : (wheyN r n p s).tree = s.tree := by rw [wheyN_eq]
@[simp] theorem wheyN_l2 (r n p : Nat) (s : State) : (wheyN r n p s).l2 = s.l2 := by rw [wheyN_eq]
@[simp] theorem wheyN_routes (r n p : Nat) (s : State) : (wheyN r n p s).routes = s.routes := by rw [wheyN_eq]
@[simp] theorem wheyN_flows (r n p : Nat) (s : State) : (wheyN r n p s).flows = s.flows := by rw [wheyN_eq]
@[simp] theorem wheyN_power (r n p : Nat) (s : State) : (wheyN r n p s).power = s.power := by rw [wheyN_eq]
@[simp] theorem wheyN_lanes (r n p : Nat) (s : State) : (wheyN r n p s).lanes = s.lanes := by rw [wheyN_eq]
@[simp] theorem wheyN_tilePll (r n p : Nat) (s : State) : (wheyN r n p s).tilePll = s.tilePll := by rw [wheyN_eq]
@[simp] theorem wheyN_fabric (r n p : Nat) (s : State) : (wheyN r n p s).fabric = s.fabric := by rw [wheyN_eq]
@[simp] theorem wheyN_i3c (r n p : Nat) (s : State) : (wheyN r n p s).i3c = s.i3c := by rw [wheyN_eq]
@[simp] theorem wheyN_ctl (r n p : Nat) (s : State) : (wheyN r n p s).ctl = s.ctl := by rw [wheyN_eq]
@[simp] theorem wheyN_flash (r n p : Nat) (s : State) : (wheyN r n p s).flash = s.flash := by rw [wheyN_eq]
@[simp] theorem wheyN_boot (r n p : Nat) (s : State) : (wheyN r n p s).boot = s.boot := by rw [wheyN_eq]
@[simp] theorem wheyN_upd (r n p : Nat) (s : State) : (wheyN r n p s).upd = s.upd := by rw [wheyN_eq]
@[simp] theorem wheyN_sensor (r n p : Nat) (s : State) : (wheyN r n p s).sensor = s.sensor := by rw [wheyN_eq]

@[simp] theorem whey_pending (r p : Nat) (s : State) : (whey r p s).pending = s.pending := by simp [Machine.whey]
@[simp] theorem whey_freeCtr (r p : Nat) (s : State) : (whey r p s).freeCtr = s.freeCtr := by simp [Machine.whey]
@[simp] theorem whey_now (r p : Nat) (s : State) : (whey r p s).now = s.now := by simp [Machine.whey]
@[simp] theorem whey_engines (r p : Nat) (s : State) : (whey r p s).engines = s.engines := by simp [Machine.whey]
@[simp] theorem whey_ledger (r p : Nat) (s : State) : (whey r p s).ledger = s.ledger := by simp [Machine.whey]
@[simp] theorem whey_regs (r p : Nat) (s : State) : (whey r p s).regs = s.regs := by simp [Machine.whey]
@[simp] theorem whey_lostEntries (r p : Nat) (s : State) : (whey r p s).lostEntries = s.lostEntries := by simp [Machine.whey]
@[simp] theorem whey_bank0 (r p : Nat) (s : State) : (whey r p s).bank0 = s.bank0 := by simp [Machine.whey]
@[simp] theorem whey_bank1 (r p : Nat) (s : State) : (whey r p s).bank1 = s.bank1 := by simp [Machine.whey]
@[simp] theorem whey_epoch (r p : Nat) (s : State) : (whey r p s).epoch = s.epoch := by simp [Machine.whey]
@[simp] theorem whey_vat (r p : Nat) (s : State) : (whey r p s).vat = s.vat := by simp [Machine.whey]
@[simp] theorem whey_press (r p : Nat) (s : State) : (whey r p s).press = s.press := by simp [Machine.whey]
@[simp] theorem whey_descs (r p : Nat) (s : State) : (whey r p s).descs = s.descs := by simp [Machine.whey]
@[simp] theorem whey_cave (r p : Nat) (s : State) : (whey r p s).cave = s.cave := by simp [Machine.whey]
@[simp] theorem whey_time (r p : Nat) (s : State) : (whey r p s).time = s.time := by simp [Machine.whey]
@[simp] theorem whey_triad (r p : Nat) (s : State) : (whey r p s).triad = s.triad := by simp [Machine.whey]
@[simp] theorem whey_scraper (r p : Nat) (s : State) : (whey r p s).scraper = s.scraper := by simp [Machine.whey]
@[simp] theorem whey_qm (r p : Nat) (s : State) : (whey r p s).qm = s.qm := by simp [Machine.whey]
@[simp] theorem whey_sched (r p : Nat) (s : State) : (whey r p s).sched = s.sched := by simp [Machine.whey]
@[simp] theorem whey_roll (r p : Nat) (s : State) : (whey r p s).roll = s.roll := by simp [Machine.whey]
@[simp] theorem whey_pipes (r p : Nat) (s : State) : (whey r p s).pipes = s.pipes := by simp [Machine.whey]
@[simp] theorem whey_macs (r p : Nat) (s : State) : (whey r p s).macs = s.macs := by simp [Machine.whey]
@[simp] theorem whey_enqPath (r p : Nat) (s : State) : (whey r p s).enqPath = s.enqPath := by simp [Machine.whey]
@[simp] theorem whey_portStats (r p : Nat) (s : State) : (whey r p s).portStats = s.portStats := by simp [Machine.whey]
@[simp] theorem whey_out (r p : Nat) (s : State) : (whey r p s).out = s.out := by simp [Machine.whey]
@[simp] theorem whey_mirror (r p : Nat) (s : State) : (whey r p s).mirror = s.mirror := by simp [Machine.whey]
@[simp] theorem whey_tree (r p : Nat) (s : State) : (whey r p s).tree = s.tree := by simp [Machine.whey]
@[simp] theorem whey_l2 (r p : Nat) (s : State) : (whey r p s).l2 = s.l2 := by simp [Machine.whey]
@[simp] theorem whey_routes (r p : Nat) (s : State) : (whey r p s).routes = s.routes := by simp [Machine.whey]
@[simp] theorem whey_flows (r p : Nat) (s : State) : (whey r p s).flows = s.flows := by simp [Machine.whey]
@[simp] theorem whey_power (r p : Nat) (s : State) : (whey r p s).power = s.power := by simp [Machine.whey]
@[simp] theorem whey_lanes (r p : Nat) (s : State) : (whey r p s).lanes = s.lanes := by simp [Machine.whey]
@[simp] theorem whey_tilePll (r p : Nat) (s : State) : (whey r p s).tilePll = s.tilePll := by simp [Machine.whey]
@[simp] theorem whey_fabric (r p : Nat) (s : State) : (whey r p s).fabric = s.fabric := by simp [Machine.whey]
@[simp] theorem whey_i3c (r p : Nat) (s : State) : (whey r p s).i3c = s.i3c := by simp [Machine.whey]
@[simp] theorem whey_ctl (r p : Nat) (s : State) : (whey r p s).ctl = s.ctl := by simp [Machine.whey]
@[simp] theorem whey_flash (r p : Nat) (s : State) : (whey r p s).flash = s.flash := by simp [Machine.whey]
@[simp] theorem whey_boot (r p : Nat) (s : State) : (whey r p s).boot = s.boot := by simp [Machine.whey]
@[simp] theorem whey_upd (r p : Nat) (s : State) : (whey r p s).upd = s.upd := by simp [Machine.whey]
@[simp] theorem whey_sensor (r p : Nat) (s : State) : (whey r p s).sensor = s.sensor := by simp [Machine.whey]

/-! ## The copies of the time -/

/-- The core copy lies within the bound R407 gives, 0.625 ns, of the engine count, whatever its instant draws. -/
theorem coreTime_near (s : State) : coreTime s ≤ s.time.count + 40960 ∧ s.time.count ≤ coreTime s + 40960 := by
  unfold coreTime; omega

/-! ## Claims -/

theorem foldl_add_eq (l : List Nat) : ∀ a, l.foldl (· + ·) a = a + l.foldl (· + ·) 0 := by
  induction l with
  | nil => intro a; rfl
  | cons x l ih => intro a; rw [List.foldl_cons, List.foldl_cons, ih (a + x), ih (0 + x)]; omega

theorem freeIn_cons (taken : SMap Unit) (r : Nat × Nat) (rs : List (Nat × Nat)) :
    freeIn taken (r :: rs) = (r.2 - takenIn taken r) + freeIn taken rs := by
  simp only [freeIn, List.map_cons, List.foldl_cons]
  rw [foldl_add_eq]; omega

/-- Below the number of free buffers, every index of the free ones names one. -/
theorem kthFree_some (taken : SMap Unit) (rs : List (Nat × Nat)) :
    ∀ k, k < freeIn taken rs → ∃ i, kthFree taken rs k = some i := by
  induction rs with
  | nil => intro k h; simp [freeIn] at h
  | cons r rs ih =>
    intro k h
    rw [freeIn_cons] at h
    unfold kthFree
    by_cases hk : k < r.2 - takenIn taken r
    · exact ⟨_, if_pos hk⟩
    · obtain ⟨i, hi⟩ := ih (k - (r.2 - takenIn taken r)) (by omega)
      exact ⟨i, (if_neg hk).trans hi⟩

/-- A claim from ranges with a free buffer takes one, whichever it is. -/
theorem takeFrom_some {rs : List (Nat × Nat)} {pool o : Nat} {s : State} (h : 0 < freeIn (takenOf s pool) rs) :
    ∃ i u, takeFrom rs pool o s = (some i, u) := by
  obtain ⟨i, hi⟩ := kthFree_some (takenOf s pool) rs _ (Nat.mod_lt (Config.pick s.freeCtr) h)
  exact ⟨i, _, by simp only [takeFrom, hi]; rfl⟩

end Sys2Proof.Machine
end

