-- ==== Sys2Proof/Laws/Krenus.lean ====
section
/-!
SUPPORT. Krenus-C engines: reads after writes of their registers, and what the frame of an instruction does once its
body is known.
-/
namespace Sys2Proof.Machine

/-! ## Engines and registers -/

@[simp] theorem engine_setEngine_self (e : Nat) (x : Engine) (s : State) : engine (setEngine e x s) e = x := by
  simp [engine]

theorem engine_setEngine_ne {e f : Nat} (x : Engine) (s : State) (h : f ≠ e) :
    engine (setEngine e x s) f = engine s f := by
  simp [engine, mget_mset_ne _ _ _ h]

@[simp] theorem engine_perfEvent (ev : PerfEvent) (s : State) (e : Nat) : engine (perfEvent ev s) e = engine s e := by
  simp [engine]

@[simp] theorem engine_raiseAt (pl : Nat × Nat) (c p x : Nat) (s : State) (e : Nat) :
    engine (raiseAt pl c p x s) e = engine s e := by
  simp [engine]

/-- Two states whose engine is the same hold the same general registers. -/
theorem kget_congr {s t : State} {e : EngineId} (h : engine t e = engine s e) (k : KReg) : kget t e k = kget s e k := by
  simp [kget, h]

theorem kget_setEngine (e : EngineId) (x : Engine) (s : State) (k : KReg) :
    kget (setEngine e x s) e k = if k = 0 then 0 else mget 0 x.gpr k.val := by
  simp [kget]

theorem advance_eq (e : Nat) (s : State) :
    advance e s = setEngine e { engine s e with pc := (engine s e).pc + 4 } s := rfl

/-- A write of a register changes the engines and nothing else. -/
theorem kset_eq (e : EngineId) (k : KReg) (v : Word64) (s : State) :
    kset e k v s = { s with engines := (kset e k v s).engines } := by
  unfold kset
  split <;> rfl

theorem setPc_eq (e : Nat) (pc : Word64) (s : State) : setPc e pc s = { s with engines := (setPc e pc s).engines } := rfl

@[simp] theorem engine_setPc_self (e : Nat) (pc : Word64) (s : State) :
    engine (setPc e pc s) e = { engine s e with pc := pc } := by
  simp [setPc]

theorem engine_setPc_ne {e f : Nat} (pc : Word64) (s : State) (h : f ≠ e) :
    engine (setPc e pc s) f = engine s f := engine_setEngine_ne _ s h

theorem engine_kset_ne {e : EngineId} {f : Nat} (k : KReg) (v : Word64) (s : State) (h : f ≠ e.val) :
    engine (kset e k v s) f = engine s f := by
  unfold kset
  split
  · rfl
  · exact engine_setEngine_ne _ s h

theorem engine_kset_self (e : EngineId) (k : KReg) (v : Word64) (s : State) :
    engine (kset e k v s) e
      = if k = 0 then engine s e else { engine s e with gpr := mset 0 (engine s e).gpr k.val v } := by
  unfold kset
  split <;> simp

theorem kget_setPc (e : EngineId) (pc : Word64) (s : State) (k : KReg) : kget (setPc e pc s) e k = kget s e k := by
  simp [kget]

theorem kget_kset (e : EngineId) (kd k : KReg) (v : Word64) (s : State) :
    kget (kset e kd v s) e k = if k = kd ∧ k ≠ 0 then v else kget s e k := by
  by_cases h0 : kd = 0
  · subst h0; simp [kset]
  · by_cases hk : k = 0
    · subst hk; simp [kget]
    · simp only [kget, engine_kset_self, h0, hk, if_false]
      by_cases h : k = kd
      · subst h; simp [hk]
      · have : k.val ≠ kd.val := fun e => h (Fin.ext e)
        simp [h, mget_mset_ne _ _ _ this]

/-- A value written to kd, then the pc set: what `wrote` says, whatever changed outside the engines before. -/
theorem wrote_setPc_kset {s u : State} (e : EngineId) (kd : KReg) (v pc : Word64)
    (h : ∀ f, engine u f = engine s f) : wrote s (setPc e pc (kset e kd v u)) e kd v pc := by
  have hk : ∀ k, kget u e k = kget s e k := fun k => kget_congr (h e) k
  refine ⟨?_, ?_, ?_, ?_⟩
  · intro k; rw [kget_setPc, kget_kset, hk]
  · simp
  · simp only [engine_setPc_self, engine_kset_self, h]
    split <;> rfl
  · intro f hf; rw [engine_setPc_ne _ _ hf, engine_kset_ne _ _ _ hf, h]

/-- `wrote` sees the engines only. -/
theorem wrote_congr {s t u : State} {e : EngineId} {kd : KReg} {v pc : Word64} (h : u.engines = t.engines)
    (w : wrote s t e kd v pc) : wrote s u e kd v pc := by
  have he : ∀ f, engine u f = engine t f := fun f => by simp [engine, h]
  have hk : ∀ k, kget u e k = kget t e k := fun k => kget_congr (he e) k
  simpa only [wrote, he, hk] using w

/-! ## Channels in step (R85, R437) -/

/-- Nothing a Triad in step reads is wrong in one core. -/
theorem noteCores_inStep {s : State} {e : EngineId} (h : inStep s e) (a n : Nat) : noteCores e a n s = s := by
  unfold noteCores
  split
  · rfl
  · next hn =>
    have he : e.val = eTriad := by
      by_cases k : e.val = eTriad
      · exact k
      · exact absurd (Or.inl k) hn
    exact absurd (Or.inr (h (Fin.ext he)).2) hn

/-- An output that every channel presents alike is used, and the vote changes nothing. -/
theorem voteOutput_agree {s : State} {e : EngineId} (h : inStep s e) (kind item : Nat) :
    voteOutput e .agree kind item s = (true, s) := by
  unfold voteOutput
  split
  · rfl
  · next hn =>
    have he : e.val = eTriad := by
      by_cases k : e.val = eTriad
      · exact k
      · exact absurd k hn
    simp [presented, (h (Fin.ext he)).1]

/-- The trap entry of a Triad in step is taken. -/
theorem voteTrap_inStep {s : State} {e : EngineId} (h : inStep s e) : voteTrap e s = (true, s) := by
  unfold voteTrap
  split
  · rfl
  · next hn =>
    have he : e.val = eTriad := by
      by_cases k : e.val = eTriad
      · exact k
      · exact absurd (Or.inl k) hn
    exact absurd (Or.inr (by simp [presented, (h (Fin.ext he)).1])) hn

/-! ## The frame of an instruction -/

/-- An instruction that starts and does not end in a trap: its body, and the count of one retired instruction. -/
theorem runInstr_of_starts {s : State} {e : EngineId} (h : starts s e) (body : State → State) :
    runInstr e body s = retire e s (body s) := by
  simp [runInstr, h.1, h.2.1, noteCores_inStep h.2.2]

/-- Retiring an instruction changes the performance counters and nothing else. -/
theorem retire_eq (e : Nat) (s s1 : State) : retire e s s1 = { s1 with perf := (retire e s s1).perf } := by
  unfold retire
  split
  · rfl
  · exact perfEvent_eq _ _

theorem retire_engines (e : Nat) (s s1 : State) : (retire e s s1).engines = s1.engines := by
  rw [retire_eq]

/-- A running engine. -/
theorem run_of_starts {s : State} {e : EngineId} (h : starts s e) : (engine s e).run = .running := by
  have := h.1
  simp [canRun] at this
  exact this.1

/-- One value in kd, the next word, and nothing else but a performance counter. -/
theorem runAlu_spec {s : State} {e : EngineId} (h : starts s e) (kd : KReg) (v : State → Word64) :
    wrote s (runAlu e kd v s) e kd (v s) ((engine s e).pc + 4)
      ∧ { runAlu e kd v s with engines := s.engines, perf := s.perf } = s := by
  unfold runAlu
  rw [runInstr_of_starts h]
  constructor
  · refine wrote_congr (retire_engines _ _ _) ?_
    have hp : (engine (kset e kd (v s) s) e).pc = (engine s e).pc := by
      rw [engine_kset_self]; split <;> rfl
    show wrote s (setPc e _ (kset e kd (v s) s)) e kd (v s) _
    rw [hp]
    exact wrote_setPc_kset e kd (v s) _ (fun _ => rfl)
  · rw [retire_eq]
    show { advance e (kset e kd (v s) s) with engines := s.engines, perf := s.perf } = s
    unfold advance
    rw [setPc_eq, kset_eq]

/-! ## Traps -/

theorem bitOf_six (s : State) (e : EngineId) : bitOf (engine s e).status.toNat 6 = true ↔ inTrap s e := by
  simp [bitOf, inTrap]

/-- A trap taken outside a handler: its entry (R83), and nothing else but a performance counter. -/
theorem takeTrap_spec {s : State} {e : EngineId} (hs : inStep s e) (h : ¬ inTrap s e) {cause : Nat} (hc : cause < 2 ^ 64)
    (tval epc : Word64) :
    trapEntry s (takeTrap e cause tval epc s) e cause tval epc
      ∧ { takeTrap e cause tval epc s with engines := s.engines, perf := s.perf } = s := by
  have h6 : bitOf (engine s e).status.toNat 6 = false := by
    rw [← Bool.not_eq_true, bitOf_six]; exact h
  have hx : takeTrap e cause tval epc s = setEngine e { engine s e with
      cause := BitVec.ofNat 64 cause, tval := tval, epc := epc,
      status := BitVec.ofNat 64 ((engine s e).status.toNat % 4 * 4 + (engine s e).status.toNat / 16 % 2 * 32 + 64),
      pc := (engine s e).tvec } (perfEvent { code := 0x051, master := engineMaster e, tier := if cause = 0x20 then none else some (tierOf s e) } s) := by
    unfold takeTrap
    simp only [voteTrap_inStep hs, not_true_eq_false, engine_perfEvent, h6, Bool.false_eq_true, if_false, enterTrap]
  rw [hx]
  constructor
  · refine ⟨?_, ?_, ?_, ?_, ?_, ?_, ?_⟩
    · simp; exact hc
    · simp
    · simp
    · simp
    · simp; omega
    · simp
    · intro f hf; rw [engine_setEngine_ne _ _ hf, engine_perfEvent]
  · rw [perfEvent_eq]; rfl

/-- What a trap's entry says of one state holds of every state with the same engines. -/
theorem trapEntry_congr {s t u : State} {e : EngineId} {c : Nat} {v p : Word64} (h : u.engines = t.engines)
    (w : trapEntry s t e c v p) : trapEntry s u e c v p := by
  have he : ∀ f, engine u f = engine t f := fun f => by simp [engine, h]
  simpa only [trapEntry, he] using w

/-- An instruction that starts and traps: the entry, and nothing else but performance counters. -/
theorem runInstr_traps {s : State} {e : EngineId} (h : starts s e) (ht : ¬ inTrap s e) {body : State → State}
    {cause : Nat} (hc : cause < 2 ^ 64) {tval epc : Word64} (hb : body s = takeTrap e cause tval epc s) :
    trapEntry s (runInstr e body s) e cause tval epc
      ∧ { runInstr e body s with engines := s.engines, perf := s.perf } = s := by
  rw [runInstr_of_starts h, hb]
  have k := takeTrap_spec h.2.2 ht hc tval epc
  refine ⟨trapEntry_congr (retire_engines _ _ _) k.1, ?_⟩
  rw [retire_eq]
  exact k.2

/-- An instruction that starts, changes nothing but the engines and performance counters, and goes on. -/
theorem runInstr_engines {s : State} {e : EngineId} (h : starts s e) {body : State → State}
    (hb : { body s with engines := s.engines, perf := s.perf } = s) :
    (runInstr e body s).engines = (body s).engines
      ∧ { runInstr e body s with engines := s.engines, perf := s.perf } = s := by
  rw [runInstr_of_starts h]
  refine ⟨retire_engines _ _ _, ?_⟩
  rw [retire_eq]
  exact hb

end Sys2Proof.Machine
end

