-- ==== Sys2Proof/Laws/Registers.lean ====
section
/-!
SUPPORT. Control registers: what a write that its checks let through makes of the state, and what a store of bits
changes.
-/
namespace Sys2Proof.Machine

/-! ## The access does not see the performance counters -/

theorem accessOf_perf (p : PerfSt) (s : State) (src : Source) (a : Nat) :
    accessOf { s with perf := p } src a = accessOf s src a := rfl

theorem regRefusal_perf (p : PerfSt) (s : State) (b : Block) (r : Nat) (w : RegWr) :
    regRefusal { s with perf := p } b r w = regRefusal s b r w := rfl

theorem storedBits_perf (p : PerfSt) (s : State) (b : Block) (r : Nat) :
    storedBits { s with perf := p } b r = storedBits s b r := rfl

theorem regWr_perf (p : PerfSt) (s : State) (b : Block) (r al v : Nat) :
    regWr { s with perf := p } b r al v = regWr s b r al v := rfl

theorem rwlOpen_perf (p : PerfSt) (s : State) (b : Block) : rwlOpen { s with perf := p } b = rwlOpen s b := rfl

/-- An access of control space is counted and changes nothing else. -/
theorem accessEvent_eq (src : Source) (a : Nat) (s : State) :
    accessEvent src a s = { s with perf := (accessEvent src a s).perf } := perfEvent_eq _ s

/-- A write that the register takes: its bits are stored, and what the write starts is done. -/
theorem regWrite_taken {s : State} {src : Source} {a v r : Nat} {b : Block}
    (hm : (specOf b r).rw + (if rwlOpen s b && (specOf b r).rwl != 0 then (specOf b r).rwl else 0) ≠ 0 ∨ (specOf b r).wo ≠ 0)
    (hc : ¬ (b = .ctlport ∧ 1 ≤ r ∧ r ≤ 8)) (hr : regRefusal s b r (regWr s b r (addrAlias a) v) = none) :
    regWrite src a b r v true s
      = (false, regEffect b r (regWr s b r (addrAlias a) v).wo (storedBits s b r)
          (regStore b r (regWr s b r (addrAlias a) v).new true (regWr s b r (addrAlias a) v).opened s)) := by
  unfold regWrite
  simp only [regWr] at hr
  rw [if_neg (by simp only [if_true]; rintro ⟨h1, h2⟩; exact hm.elim (fun h => h h1) (fun h => h h2))]
  simp only [if_true, regWr]
  simp only [true_and]
  rw [hr]
  simp only [hc, if_false]

/-- A register address and an alias name the alias. -/
theorem addrAlias_regAddr (b : Block) (r al : Nat) (h : al < 16) : addrAlias (regAddr b r + al) = al := by
  unfold addrAlias regAddr
  have h1 : (blockPlace b).1 * 2 ^ 27 = (blockPlace b).1 * 2 ^ 23 * 16 := by
    rw [Nat.mul_assoc, show (2 : Nat) ^ 23 * 16 = 2 ^ 27 from rfl]
  have h2 : (blockPlace b).2 * 2 ^ 18 = (blockPlace b).2 * 2 ^ 14 * 16 := by
    rw [Nat.mul_assoc, show (2 : Nat) ^ 14 * 16 = 2 ^ 18 from rfl]
  rw [h1, h2, ← Nat.add_mul, ← Nat.add_mul]
  omega

/-- A write that meets a register of a block that answers is that register's write. -/
theorem ctlWriteCore_mapped {s u : State} {src : Source} {a v r : Nat} {b : Block} (hu : accessEvent src a s = u)
    (h : accessOf u src a = .mapped b r) : ctlWriteCore src a v s = regWrite src a b r v true u := by
  unfold ctlWriteCore
  simp only [hu, h]

/-- A write by a source that may write, to a register that takes it. -/
theorem sourceWrite_taken {s : State} {src : Source} {b : Block} {r al v : Nat} (hal : al < 16)
    (ha : accepts s src b r al v)
    (hm : (specOf b r).rw + (if rwlOpen s b && (specOf b r).rwl != 0 then (specOf b r).rwl else 0) ≠ 0 ∨ (specOf b r).wo ≠ 0)
    (hc : ¬ (b = .ctlport ∧ 1 ≤ r ∧ r ≤ 8)) (hs : ¬ (b = .starter ∧ r = 1)) :
    sourceWrite src (regAddr b r + al) v s
      = regEffect b r (regWr s b r al v).wo (storedBits s b r)
          (regStore b r (regWr s b r al v).new true (regWr s b r al v).opened (accessEvent src (regAddr b r + al) s)) := by
  have hal' : addrAlias (regAddr b r + al) = al := addrAlias_regAddr b r al hal
  have hno : startsMould s src (regAddr b r + al) v = false := by
    have : (Access.mapped b r == Access.mapped Block.starter 1) = false := by
      simp only [beq_eq_false_iff_ne, ne_eq, Access.mapped.injEq]
      exact hs
    simp [startsMould, ha.2.1, this]
  obtain ⟨u, hu, h1, h2, h3, h4, h5⟩ : ∃ u, accessEvent src (regAddr b r + al) s = u
      ∧ accessOf u src (regAddr b r + al) = .mapped b r
      ∧ rwlOpen u b = rwlOpen s b ∧ regRefusal u b r (regWr u b r al v) = none
      ∧ regWr u b r al v = regWr s b r al v ∧ storedBits u b r = storedBits s b r := by
    refine ⟨_, accessEvent_eq _ _ s, ?_, ?_, ?_, ?_, ?_⟩
    · rw [accessOf_perf]; exact ha.2.1
    · rw [rwlOpen_perf]
    · rw [regWr_perf, regRefusal_perf]; exact ha.2.2
    · rw [regWr_perf]
    · rw [storedBits_perf]
  have hw := regWrite_taken (s := u) (src := src) (a := regAddr b r + al) (v := v) (r := r) (b := b)
    (by rw [h2]; exact hm) hc (by rw [hal']; exact h3)
  rw [hal', h4, h5] at hw
  unfold sourceWrite
  rw [if_pos ha.1]
  unfold ctlWrite
  rw [hno, if_neg Bool.false_ne_true, ctlWriteCore_mapped hu h1, hw, hu]

/-- Storing the bits of a register changes the register file and the shadow generation and nothing else. -/
theorem regStore_eq (b : Block) (r new : Nat) (rw' opened : Bool) (s : State) :
    regStore b r new rw' opened s
      = { s with regs := (regStore b r new rw' opened s).regs, bank0 := (regStore b r new rw' opened s).bank0,
                 bank1 := (regStore b r new rw' opened s).bank1 } := by
  unfold regStore setRwl setBank
  cases rw' <;> cases opened <;> simp only [Bool.false_eq_true, if_true, if_false] <;> (try split) <;> rfl

/-- With the RWL fields closed, the two generations stay. -/
theorem regStore_closed (b : Block) (r new : Nat) (s : State) :
    regStore b r new true false s = clearParity b r (setRw b r new s) := rfl

/-! ## Interrupt sources -/

/-- A source whose condition holds in the unit's state, and that is enabled, is pending and enabled, whatever the free
sources are. -/
theorem intEnabled_bit {s : State} {e k : Nat} (hp : (knownPending s e).testBit k = true)
    (he : (rwField s (intBlock e) 9 15 0).testBit k = true) : bitOf (intEnabled s e) k = true := by
  have h : (intEnabled s e).testBit k = true := by
    rw [intEnabled, intPending, Nat.testBit_and, Nat.testBit_or, hp, he]; rfl
  rw [Nat.testBit_eq_decide_div_mod_eq, decide_eq_true_eq] at h
  rw [bitOf, h]; rfl

/-- And so something is pending and enabled. -/
theorem intEnabled_ne_zero {s : State} {e k : Nat} (h : bitOf (intEnabled s e) k = true) : intEnabled s e ≠ 0 := by
  intro h0; rw [h0] at h; simp [bitOf] at h

end Sys2Proof.Machine
end

