-- ==== Sys2Proof/Tests/Slice0.lean ====
section
/-!
SUPPORT. Tests: ill-formed commands that WellFormed refuses, words written out from the encodings of
04_krenus_encoding.md, and for the hypotheses of every statement a state and operands that meet them (`wit_…`, named
after the statement).
-/
namespace Sys2Proof.Tests
set_option Elab.async false -- some of the kernel's work here is long: one declaration at a time
open Sys2Proof Sys2Proof.Machine Sys2Proof.Claims

/-! ## Ill-formed commands -/

theorem test_frameReceive_wf : (Instr.frameReceive 0 [] .clean 0).wellFormed = false
    ∧ (Instr.frameReceive 0 [1] .clean 2).wellFormed = false := by decide
theorem test_wheelRelease_wf : (Instr.wheelRelease 3145728).wellFormed = false := by decide
theorem test_cellReceive_wf : (Instr.cellReceive 0 [0] .plain false).wellFormed = false := by decide
theorem test_join_wf : (FabricMsg.join ⟨1, none, 256, 0, 1, 1, 0, 0, false⟩).wellFormed = false := by decide
theorem test_routeScrub_wf : (Instr.routeScrub 0 40960 true).wellFormed = false := by decide
theorem test_auditDone_wf : (Instr.auditDone [.register 4 0]).wellFormed = false
    ∧ (Instr.auditDone [.buffer 0xE0180000]).wellFormed = false := by decide
theorem test_vatWordRebuild_wf : (Instr.vatWordRebuild 4 4 .wordFails).wellFormed = false
    ∧ (Instr.vatWordRebuild 4 256 .recordFails).wellFormed = false := by decide
theorem test_i3c_wf : (Instr.i3cWrite [1, 0, 0, 0] true).wellFormed = false
    ∧ (Instr.i3cReadSetup [2] true).wellFormed = false := by decide
theorem test_settings_wf : (Instr.settingsWrite [0]).wellFormed = false := by decide
theorem test_railSample_wf : (Instr.railSample [750]).wellFormed = false := by decide
theorem test_temperatureSample_wf : (Instr.temperatureSample [100]).wellFormed = false := by decide
theorem test_vcore_wf : (Instr.vcoreTargetStep 0 649).wellFormed = false
    ∧ (Instr.vcoreTargetStep 0 751).wellFormed = false := by decide
theorem test_illegal_wf : (Instr.illegalInstruction 0 0x04611000).wellFormed = false
    ∧ (Instr.illegalInstruction 0 0).wellFormed = true := by decide

/-! ## Words -/

theorem test_word_base : decodeKrenus 0 0b000001_00011_00001_00010_00000_000000 = some (.add 0 3 1 2)
    ∧ decodeKrenus 0 0b000001_00111_11111_00000_00000_010001 = some (.clz 0 7 31)
    ∧ decodeKrenus 0 0b000010_00101_00110_1111111111111111 = some (.addi 0 5 6 (-1))
    ∧ decodeKrenus 0 0b000110_00101_00110_00000000_10_000011 = some (.shi 0 5 6 0x83)
    ∧ decodeKrenus 0 0b000111_00001_100000000000000000001 = some (.lui 0 1 0x100001) := by decide
theorem test_word_memory : decodeKrenus 0 0b001010_00100_00010_1000000000000000 = some (.ldW 0 4 2 0x8000)
    ∧ decodeKrenus 0 0b010011_00100_00010_0000000000001000 = some (.stD 0 4 2 8 .agree)
    ∧ decodeKrenus 0 0b100001_00001_00010_0000000000010000 = some (.ldc 0 1 2 16 .agree) := by decide
theorem test_word_control : decodeKrenus 0 0b011100_00010_00011_1111111111111100 = some (.bltu 0 2 3 0xFFFC)
    ∧ decodeKrenus 0 0b011110_00000000000000000000000010 = some (.jal 0 2)
    ∧ decodeKrenus 0 0b100000_00000_00000_0100000000_000010 = some (.trapCall 0 0x100)
    ∧ decodeKrenus 0 0b100011_00000_00001_00010_00011_000000 = some (.copy 0 1 2 3) := by decide
theorem test_word_device : decodeKrenus 0 0b100110_00001_00010_00011_00100_000100 = some (.vatShare 0 1 2 3 4)
    ∧ decodeKrenus 0 0b101100_00001_00010_00000_00000_000000 = some (.auditRun 0 1 2)
    ∧ decodeKrenus 0 0b100100_00001_00010_00011_00000_000000 = some (.tblWr 0 1 2 3)
    ∧ decodeKrenus 0 0b100101_00001_00010_00011_00000_000000 = some (.rehash 0 1 2 3)
    ∧ decodeKrenus 0 0b100111_00001_00010_00011_00000_000000 = some (.qEnq 0 1 2 3)
    ∧ decodeKrenus 0 0b101000_00001_00010_00000_00000_000000 = some (.timeRd 0 1 2)
    ∧ decodeKrenus 0 0b101001_00001_00000_00000_00000_000000 = some (.epochStage 0 1)
    ∧ decodeKrenus 0 0b101010_00001_00010_00000_00000_000000 = some (.ctrFreeze 0 1 2)
    ∧ decodeKrenus 0 0b101011_00001_00010_00000_00000_000000 = some (.faultRaise 0 1 2) := by decide
theorem test_word_refused : decodeKrenus 0 0b000001_00011_00001_00010_00001_000000 = none
    ∧ decodeKrenus 0 0b000001_00011_00001_00010_00000_010101 = none
    ∧ decodeKrenus 0 0b000001_00011_00001_00010_00000_010000 = none := by decide

/-! ## The step -/

/-- A step on an empty queue is one core clock: 625 ps pass. -/
theorem test_empty_queue_ticks : step State.reset = .next (strike (Config.upset 0) (tick State.reset))
    ∧ (tick State.reset).now = 625 := ⟨rfl, by decide +kernel⟩
theorem test_step_takes_the_front :
    (match step { State.reset with pending := [.vaonDown, .vaonUp] } with
      | .next t => t.pending == [.vaonUp] && !t.boot.vaon | _ => false) = true := by decide +kernel

/-! ## Witnesses: the terms they share -/

/-- A unit in service: every domain on, every engine running in T0 at address 0. -/
def up : State :=
  { State.reset with
    power := { on := 2 ^ 30 - 1 }
    tilePll := 255
    boot := { inReset := false, pgood := true, phase := .running, committed := true, slot := 0 }
    engines := (List.range 19).map (fun e => (e, { run := .running })) }

/-- The unit with general registers of the Triad. -/
def withK (rs : SMap Word64) (s : State) : State := setEngine 0 { engine s 0 with gpr := rs } s

/-- The unit with the Triad's KC_STATUS and KC_OWNER. -/
def withStatus (status owner : Word64) (s : State) : State :=
  setEngine 0 { engine s 0 with status := status, owner := owner } s

/-! ## Krenus-C -/

theorem wit_ArithmeticResults : starts (withK [(2, 5), (3, 0)] up) 0
    ∧ (aluResult (withK [(2, 5), (3, 0)] up) (.divu 0 1 2 3)).isSome = true
    ∧ (0x04611800#32).toNat / 2 ^ 26 = 1 ∧ (0x04611810#32).toNat % 64 = 0x10 := by
  simp only [starts, inStep]; and_intros <;> first | decide +kernel | rfl
theorem wit_LoadResults : let s := withK [(2, 0x1FFFFF8)] up
    starts s 0 ∧ loadForm (.ldD 0 1 2 0) = some (0, 1, 2, 0, 8, false)
    ∧ accessFault s 0 .read (accessAddr s 0 2 0) 8 = none
    ∧ accessFault s 0 .read (accessAddr s 0 2 4) 8 = some (5, 0x1FFFFFC)
    ∧ (accessFault s 0 .read (accessAddr s 0 2 8) 8).isSome = true ∧ ¬ inTrap s 0 := by
  simp only [starts, inStep, inTrap]; and_intros <;> first | decide +kernel | rfl
theorem wit_StoreResults : let s := withK [(2, 0x1FFFFF8)] up
    starts s 0 ∧ storeForm (.stD 0 1 2 0 .agree) = some (0, 1, 2, 0, 8, .agree)
    ∧ accessFault s 0 .write (accessAddr s 0 2 0) 8 = none
    ∧ (accessFault s 0 .write (accessAddr s 0 2 1) 8).isSome = true ∧ ¬ inTrap s 0 := by
  simp only [starts, inStep, inTrap]; and_intros <;> first | decide +kernel | rfl
theorem wit_MajorityVote : starts up 0 ∧ storeForm (.stB 0 1 2 0 (.differs 2)) = some (0, 1, 2, 0, 1, .differs 2)
    ∧ accessFault up 0 .write (accessAddr up 0 2 0) 1 = none ∧ up.triad.mode = .triplex
    ∧ bitOf up.triad.inVote 2 = true := by
  simp only [starts, inStep]; and_intros <;> first | decide +kernel | rfl
theorem wit_BranchAndJump : let s := withK [(2, 2), (3, 4)] up
    starts s 0 ∧ branchForm s (.beq 0 2 2 5) = some (0, true, 5) ∧ branchForm s (.blt 0 3 2 5) = some (0, false, 5)
    ∧ (kget s 0 3 + BitVec.ofInt 64 (0#16).toInt).toNat % 4 = 0
    ∧ (kget s 0 2 + BitVec.ofInt 64 (0#16).toInt).toNat % 4 ≠ 0 ∧ ¬ inTrap s 0 := by
  simp only [starts, inStep, inTrap]; and_intros <;> first | decide +kernel | rfl
/-- A unit whose tile core 0A runs a program in T1 (a tile core has no regions). -/
def tile1 : State := setEngine 2 { run := .running, status := 1, gpr := [(2, 0xEFFF), (3, 0xF000)] } up

theorem wit_EngineRegisters : let s := withK [(2, 0), (3, 0xC)] up
    starts s 0 ∧ tierOf s 0 = 0 ∧ (csrValue s 0 0x27).isSome = true ∧ csrValue s 0 0x28 = none
    ∧ (kget s 0 2).toNat / 4 % 4 ≠ 3 ∧ (kget s 0 3).toNat / 4 % 4 = 3 ∧ (kget s 0 3).toNat % 4 = 0 ∧ ¬ inTrap s 0
    ∧ starts tile1 2 ∧ tierOf tile1 2 ≠ 0 ∧ ¬ inTrap tile1 2 ∧ csrValue tile1 2 1 = none := by
  simp only [starts, inStep, inTrap]; and_intros <;> first | decide +kernel | rfl
theorem wit_TrapEntry : starts up 0 ∧ ¬ inTrap up 0 ∧ decodeKrenus 0 0 = none ∧ tierOf up 0 = 0
    ∧ starts tile1 2 ∧ ¬ inTrap tile1 2 ∧ tierOf tile1 2 ≠ 0 := by
  simp only [starts, inStep, inTrap]; and_intros <;> first | decide +kernel | rfl
theorem wit_TrapReturnAndWait_trap : let s := withStatus 0x40 0 up
    starts s 0 ∧ inTrap s 0 ∧ decodeKrenus 0 0xFFFFFFFF = none ∧ tierOf s 0 = 0
    ∧ starts tile1 2 ∧ tierOf tile1 2 ≠ 0 ∧ ¬ inTrap tile1 2 := by
  simp only [starts, inStep, inTrap]; and_intros <;> first | decide +kernel | rfl
theorem wit_TrapReturnAndWait_wait : let s := setRw .triad 9 0xFFFF up
    intEnabled s 0 ≠ 0 ∧ tierOf s 0 = 0 ∧ (∃ k < 16, bitOf (intEnabled s 0) k = true)
    ∧ canRun (withStatus 0x10 0 s) 0 = true ∧ bitOf (engine (withStatus 0x10 0 s) 0).status.toNat 4 = true
    ∧ triadStalled s = false ∧ bitOf (engine s 0).status.toNat 4 = false
    ∧ (engine (setEngine 0 { engine s 0 with run := .waiting } s) 0).run = .waiting ∧ starts s 0 ∧ ¬ inTrap s 0 := by
  have h : bitOf (intEnabled (setRw .triad 9 0xFFFF up) 0) 5 = true := intEnabled_bit (by decide +kernel) (by decide +kernel)
  refine ⟨intEnabled_ne_zero h, by decide +kernel, ⟨5, by decide, h⟩, ?_⟩
  simp only [starts, inStep, inTrap]
  and_intros <;> first | decide +kernel | rfl
theorem wit_CopyResults : let s := fun n => withK [(2, 0), (3, 0x100), (4, n)] up
    starts (s 0) 0 ∧ ¬ inTrap (s 0) 0 ∧ kget (s 0) 0 4 = 0
    ∧ spanFault (s 65535) 0 .read 0x100 65535 = none ∧ spanFault (s 65535) 0 .write 0 65535 = none
    ∧ spanFault (s 1) 0 .read 0x2000000 1 = some (0x0A, 0x2000000)
    ∧ spanFault (s 2) 0 .write 0x1FFFFFF 2 = some (0x0A, 0x2000000) ∧ 65536 ≤ (kget (s 65536) 0 4).toNat := by
  simp only [starts, inStep, inTrap]; and_intros <;> first | decide +kernel | rfl

/-! ## Registers -/

theorem wit_RegisterWrite : let a := regAddr .time 1
    let o := { up with epoch := { shadowOpen := true } }
    sourceMay up (.tileCore 0 0) true a = false ∧ sourceMay up .i3c true a = true
    ∧ accessOf up .i3c a = .mapped .time 1 ∧ plainReg .time 1 = true ∧ (specOf .time 1).rw ≠ 0
    ∧ regRefusal up .time 1 (regWr up .time 1 0 1) = none
    ∧ (regRefusal up .fabric 3 (regWr up .fabric 3 0 1)) = none
    ∧ rwlOpen o .fabric = true ∧ (specOf .fabric 0).rwl ≠ 0
    ∧ (regRefusal o .fabric 0 (regWr o .fabric 0 0 6)).isSome = true
    ∧ (specOf .fabric 0).rw = 0 ∧ (specOf .fabric 0).wo = 0 ∧ rwlOpen up .fabric = false := by
  and_intros <;> first | decide +kernel | rfl
/-- A unit whose tile core 0A runs a program in T2. -/
def tile2 : State := setEngine 2 { run := .running, status := 2, gpr := [(2, 2)] } up

theorem wit_ControlAccess_tier : starts tile2 2 ∧ ¬ inTrap tile2 2 ∧ tierOf tile2 2 = 2
    ∧ starts up 0 ∧ tierOf up 0 ≠ 2 ∧ ctrlSum up 0 0 2 = 2 ∧ (2 : Int) % 2 ^ 32 % 4 ≠ 0 := by
  simp only [starts, inStep, inTrap]; and_intros <;> first | decide +kernel | rfl
theorem wit_ControlAccess : let s := withK [(2, BitVec.ofNat 64 (regAddr .time 1)), (3, 0), (4, 0xFFFFFFFC)] up
    starts s 0 ∧ ¬ inTrap s 0 ∧ (ctrlSum s 0 2 0).toNat = regAddr .time 1 ∧ (ctrlSum s 0 2 0).toNat % 4 = 0
    ∧ sourceMay s .triad false (regAddr .time 1) = true ∧ sourceMay s .triad true (regAddr .time 1) = true
    ∧ accessOf s .triad (regAddr .time 1) = .mapped .time 1 ∧ regRefusal s .time 1 (regWr s .time 1 0 0) = none
    ∧ ctrlSum s 0 3 0xFFFC < 0 ∧ ctrlSum s 0 4 4 = 2 ^ 32 ∧ ctrlSum s 0 4 3 = 2 ^ 32 - 1
    ∧ accessOf s .triad 0xFFFFFFFC = .unmapped
    ∧ sourceMay s .timeEngine false 0xFFFFFFFC = false ∧ sourceMay s .timeEngine true 0xFFFFFFFC = false := by
  simp only [starts, inStep, inTrap]; and_intros <;> first | decide +kernel | rfl
theorem wit_AcknowledgeAndKeys : accepts up .triad .refin (16 * 2 + 7) 0 1 ∧ accepts up .triad .tsq (64 * 31 + 6) 0 1
    ∧ accepts up .i3c .ctlport 9 0 1 ∧ accepts up .i3c .ctlport 9 0 3 ∧ accepts up .i3c .ctlport 9 0 4
    ∧ accepts up .i3c .ctlport 9 0 6 := by
  simp only [accepts]; and_intros <;> first | decide +kernel | rfl
theorem wit_CounterWrites : accepts up .triad .perfctr 4096 0 0 ∧ accepts up .triad .perfctr 4096 0 1
    ∧ accepts up .triad .perfctr 4096 4 2 ∧ up.perf.snapping = false ∧ accepts up .triad .perfctr (16 * 255 + 9) 0 4
    ∧ accepts up .triad .flowctr (8 * 3) 0 0x1FFFFF ∧ accepts up .triad .flowctr (8 * 3 + 6) 0 1 := by
  simp only [accepts]; and_intros <;> first | decide +kernel | rfl

/-- The Triad program of owner name 0x7000_0001 holds cell 5 and scratch buffer 0 of its pool. -/
def holds : State :=
  { withStatus 0 0x70000001 up with
    vat := { held := [(5, { owner := 0x70000001, holds := 1 }), (scratchBuffer up 0, { owner := 0x70000001, holds := 1 })]
             fill := some { cell := 5, length := 16, owner := 0x70000001 } } }

theorem wit_VatRegisterCommands : accepts up .triad .vat 5 4 0x400 ∧ up.vat.fill = none
    ∧ holds.vat.fill = some { cell := 5, length := 16, owner := 0x70000001 }
    ∧ fillRefusedNow holds { cell := 5, length := 16, owner := 0x70000001 } = false
    ∧ fillRefusedNow holds { cell := 6, length := 16, owner := 0x70000001 } = true
    ∧ accepts up .triad .vat (16 + 15) 0 0 ∧ accepts up .triad .vat 1 0 4 := by
  simp only [accepts]; and_intros <;> first | decide +kernel | rfl
theorem wit_RecoveryWrites : accepts { up with triad := { retired := 4, mode := .duplex, inVote := 3 } } .triad .triad 6 0 4
    ∧ accepts up .triad .scraper 3 0 0x80000000 ∧ accepts up .i3c .sensor 3 4 0x100 := by
  simp only [accepts]; and_intros <;> first | decide +kernel | rfl

/-! ## Epochs, counters, faults and audits -/

/-- A stage is open. -/
def staged : State := { up with epoch := { shadowOpen := true } }

/-- The Triad's k2 names a time record of 20,000 ns. -/
def record : State := setEngine 0 { run := .running, gpr := [(2, 0x100)], mem := [(0x108, 0x20), (0x109, 0x4E)] } staged

theorem wit_EpochInstructions_stage : let late := { up with sched := { gates := [(0, { pending := some {} })] } }
    startsDev up 0 .epoch ∧ stageReady up = true ∧ up.epoch.commit = .none ∧ up.epoch.shadowOpen = false
    ∧ startsDev staged 0 .epoch ∧ staged.epoch.shadowOpen = true ∧ staged.epoch.commit = .none
    ∧ startsDev late 0 .epoch ∧ stageReady late = false ∧ late.epoch.stagePending = false := by
  simp only [startsDev, starts, inStep]; and_intros <;> first | decide +kernel | rfl
theorem wit_EpochInstructions_at : let wait := { record with epoch := { shadowOpen := true, commit := .scheduled 50000 } }
    startsDev record 0 .epoch ∧ recordFault record 0 .read (kget record 0 2).toNat = none
    ∧ recordTime (loadBytes record 0 (kget record 0 2).toNat 16) = some (20000 * 2 ^ 16) ∧ record.epoch.commit = .none
    ∧ record.epoch.shadowOpen = true ∧ wait.epoch.commit = .scheduled 50000
    ∧ startsDev { record with time := { count := 20000 * 2 ^ 16 } } 0 .epoch
    ∧ startsDev wait 0 .epoch ∧ wait.epoch.live < 2 ^ 16 := by
  simp only [startsDev, starts, inStep]; and_intros <;> first | decide +kernel | rfl
/-- The times of those states, whatever the core copy differs by: 20,000 ns lies 10 µs ahead of a count of 0, and is
past once the count is there. -/
theorem wit_EpochInstructions_times : let due := 20000 * 2 ^ 16
    coreTime record + (500 * fullerQueue record + 10000) * 2 ^ 16 ≤ due
    ∧ due ≤ coreTime { record with time := { count := 30000 * 2 ^ 16 } }
    ∧ coreTime { record with epoch := { shadowOpen := true, commit := .scheduled 50000 } } < 50000 := by
  have h1 := coreTime_near record
  have h2 := coreTime_near { record with time := { count := 30000 * 2 ^ 16 } }
  have h3 := coreTime_near { record with epoch := { shadowOpen := true, commit := .scheduled 50000 } }
  have c1 : record.time.count = 0 := by decide +kernel
  have c2 : ({ record with time := { count := 30000 * 2 ^ 16 } } : State).time.count = 30000 * 2 ^ 16 := rfl
  have c3 : ({ record with epoch := { shadowOpen := true, commit := .scheduled 50000 } } : State).time.count = 0 := by
    decide +kernel
  have f : fullerQueue record = 0 := by decide +kernel
  rw [c1] at h1; rw [c2] at h2; rw [c3] at h3
  refine ⟨?_, ?_, ?_⟩
  · rw [f]; omega
  · omega
  · omega
theorem wit_EpochCommands : accepts up .i3c .epoch 2 0 1 ∧ accepts staged .i3c .epoch 2 0 2
    ∧ accepts staged .i3c .epoch 2 0 4 ∧ accepts staged .i3c .epoch 2 0 8
    ∧ (∀ b, up.epoch.commit ≠ .cutting b) ∧ staged.epoch.commit = .none
    ∧ rwField (setRw .epoch 4 20000 staged) .epoch 4 29 0 = 20000 ∧ rwField (setRw .epoch 4 20000 staged) .epoch 5 31 0 = 0
    ∧ rwField (setRw .epoch 4 20000 staged) .epoch 6 31 0 = 0 ∧ (setRw .epoch 4 20000 staged).time.count = 0 := by
  simp only [accepts]; and_intros <;> first | decide +kernel | rfl
theorem wit_CommitEffects : let c := { up with epoch := { live := 1, commit := .cutting false } }
    stageReady { up with epoch := { stagePending := true } } = true ∧ up.boot.mouldWait = none
    ∧ up.routes.queue0 = [] ∧ up.routes.queue1 = [] ∧ 0 ≤ up.time.count ∧ pipeEp c 31 ≠ c.epoch.live := by
  and_intros <;> first | decide +kernel | rfl
theorem wit_CounterInstructions : let x := setRw .perfctr 4112 1 { up with now := 10 ^ 9 }
    startsDev up 0 .ctr ∧ domainOn up 13 = true ∧ perfFrozen (setRw .perfctr 4096 1 up) = true
    ∧ (kget (withK [(2, 511)] up) 0 2).toNat < 512 ∧ 512 ≤ (kget (withK [(2, 512)] up) 0 2).toNat
    ∧ rwField x .perfctr 4112 15 0 = 1 ∧ x.perf.exportFrom + 1 * 10 ^ 9 ≤ x.now := by
  simp only [startsDev, starts, inStep]; and_intros <;> first | decide +kernel | rfl
theorem wit_FaultAndAudit_raise :
    startsDev tile1 2 .faultRaise ∧ ¬ inTrap tile1 2 ∧ tierOf tile1 2 = 1 ∧ (kget tile1 2 2).toNat % 2 ^ 16 < 0xF000
    ∧ 0xF000 ≤ (kget tile1 2 3).toNat % 2 ^ 16 ∧ startsDev up 0 .faultRaise ∧ tierOf up 0 ≠ 1 := by
  simp only [startsDev, starts, inStep, inTrap]; and_intros <;> first | decide +kernel | rfl
theorem wit_FaultAndAudit_declare : let p := { up with vat := { held := [(5, { owner := 0x1000001F, holds := 1 })] } }
    startsDev holds 0 .faultDeclare ∧ isPending holds 0x70000001 = false ∧ holdsAnything holds 0x70000001 = true
    ∧ isPipeName 0x70000001 = false ∧ isPipeName 0x1000001F = true ∧ holdsAnything p 0x1000001F = true
    ∧ isPending { up with scraper := { current := some 0x70000001 } } 0x70000001 = true
    ∧ holdsAnything up 0x70000001 = false ∧ (holds.scraper.pending.filter (fun p => p.2)).length < 64
    ∧ 0x1000001F % 2 ^ 28 < 32 := by
  simp only [startsDev, starts, inStep]; and_intros <;> first | decide +kernel | rfl
theorem wit_FaultAndAudit_audit : let s := withK [(2, 1), (3, 63), (4, 64)] up
    startsDev s 0 .audit ∧ s.triad.audit = none ∧ (kget s 0 3).toNat < 64 ∧ 64 ≤ (kget s 0 4).toNat
    ∧ (1 : Nat).testBit 1 = false ∧ ({ up.triad with audit := some 1 } : TriadSt).audit ≠ none := by
  simp only [startsDev, starts, inStep]; and_intros <;> first | decide +kernel | rfl

/-! ## The Vat -/

theorem wit_BufferClaims : let s := withStatus 0 0x70000001 (withK [(2, 128), (3, 65536), (4, 65537), (5, 7), (6, 8)] up)
    let spill := { s with bank0 := { rwl := [(regKey .vat 0, 1)] } }
    let none1 := fun (u : State) => { u with regs := { u.regs with
      rw := (List.range 16).map (fun i => (regKey .vat (16 + i), 0x55555555)) ++ u.regs.rw } }
    startsDev s 0 .vat ∧ vatOwnerOk 0x70000001 = true ∧ vatOwnerOk 0 = false ∧ isDeclared s 0x70000001 = false
    ∧ canClaim s 1 4 1 = true ∧ canClaim s 4 4 1 = true ∧ canClaim s 7 4 1 = true ∧ canClaim spill 2 4 1 = true
    ∧ rwlField spill .vat 0 0 0 ≠ 0 ∧ rwlField s .vat 0 0 0 = 0
    ∧ canClaim (none1 spill) 1 4 1 = false ∧ canClaim (none1 spill) 2 4 1 = true ∧ canClaim (none1 s) 1 4 1 = false
    ∧ canClaim s 5 4 1 = false ∧ 65536 < (kget s 0 4).toNat ∧ 7 < (kget s 0 6).toNat := by
  simp only [startsDev, starts, inStep]; and_intros <;> first | decide +kernel | rfl
theorem wit_BufferHolds : let s := withK [(2, 5), (3, 65535), (4, 0x70000002)] holds
    let g := { s with vat := { s.vat with held := [(5, { owner := 0x70000002, holds := 2 })]
                                          holdTable := [(5, 0x70000001, 1)] } }
    startsDev s 0 .vat ∧ handleOk s 5 = true ∧ vatOwnerOk 0x70000001 = true ∧ isDeclared s 0x70000001 = false
    ∧ s.vat.badRecords.contains 5 = false ∧ recordOf s 5 = some { owner := 0x70000001, holds := 1 }
    ∧ recordOf g 5 = some { owner := 0x70000002, holds := 2 } ∧ holdsBuffer g 0x70000001 5 = true
    ∧ ownsRecord s 0x70000001 { owner := 0x70000001, holds := 1 } = true
    ∧ ownsRecord g 0x70000001 { owner := 0x70000002, holds := 2 } = false ∧ effOwner g 0x70000002 ≠ 0x70000001
    ∧ holdsBuffer s 0x70000001 5 = true ∧ holdsBuffer up 0x70000001 5 = false ∧ 1 + 65534 ≤ 65535 ∧ 65535 < 1 + (kget s 0 3).toNat
    ∧ s.vat.holdTable.length < 65536 := by
  simp only [startsDev, starts, inStep]; and_intros <;> first | decide +kernel | rfl

/-! ## Queues, the pager and the scheduler -/

/-- Queue 7 in the system role's egress form, resident, with descriptor 0 of a 64-byte frame at its head. -/
def queued : State :=
  { up with
    qm := { states := [(7, { resident := true, head := [0], depth := 1 })] }
    descs := [(0, { rind := { length := 64, queue := 7 }, cellCount := 1, firstCell := 5 })] }

theorem wit_QueueInstructions_enq :
    let d : List Host.Cell := (List.range 64).filterMap (fun i =>
      let b := ((Desc.bytes { rind := { length := 64, queue := 7 }, cellCount := 1, firstCell := 5 } false).getD i 0)
      if b = 0 then none else some (0x200 + i, b))
    let s := setEngine 0 { run := .running, owner := 0x70000001, gpr := [(2, 7), (3, 0x200)], mem := d } holds
    let open7 := { s with bank0 := { tbl := [(tblKey 0x0D 0 7, 3)] } }
    startsDev s 0 .q ∧ spanFault s 0 .read 0x200 64 = none
    ∧ (Desc.parse (loadBytes s 0 0x200 64)).cellCount = 1 ∧ (Desc.parse (loadBytes s 0 0x200 64)).firstCell = 5
    ∧ canClaim s 7 4 1 = true ∧ isDeclared s (ownerOf s 0) = false
    ∧ chainHeld s (ownerOf s 0) (chainCells s 1 5) 1 = true ∧ (qst s 7).resident = false
    ∧ (enqueueDecision s 7 0 0 64).isSome = true ∧ enqueueDecision open7 7 0 0 64 = none
    ∧ chainHeld up (ownerOf s 0) (chainCells s 1 5) 1 = false := by
  simp only [startsDev, starts, inStep]; and_intros <;> first | decide +kernel | rfl
theorem wit_QueueInstructions : let s := withK [(2, 7), (3, 0x100), (4, 0xFFFFF), (5, 0x100000)] queued
    let pin := { s with qm := { states := [(7, { resident := true, pinned := true, locked := true, flushing := true })]
                                locks := [(7, 0)], pins := [(7, 0)] } }
    startsDev s 0 .q ∧ (kget s 0 4).toNat < 2 ^ 20 ∧ 2 ^ 20 ≤ (kget s 0 5).toNat ∧ (qst s 7).resident = true
    ∧ spanFault s 0 .write (kget s 0 3).toNat 32 = none ∧ (qst s 7).flushing = false ∧ (qst s 7).pinned = false
    ∧ (qst s 7).locked = false ∧ s.qm.pins.length < 1024 ∧ s.qm.locks.length < 4096 ∧ (7, ownerOf s 0) ∉ s.qm.locks
    ∧ startsDev pin 0 .q ∧ (qst pin 7).pinned = true ∧ (qst pin 7).locked = true ∧ (qst pin 7).flushing = true
    ∧ (7, ownerOf pin 0) ∈ pin.qm.locks := by
  simp only [startsDev, starts, inStep]; and_intros <;> first | decide +kernel | rfl

/-- Queue 7 resident with one page in the Cave and one staging frame, every channel ready. -/
def paged : State :=
  { queued with
    cave := { chan := (List.range 8).map (fun c => (c, { ready := true })) }
    qm := { states := [(7, { resident := true, tail := [0], pages := [9], dirty := true, paged := true })]
            copyLost := [(0, 0)] } }

/-- Queue 7 resident, its state not yet written back, with nothing staged. -/
def dirtied : State := setRw .qcache 0 0 { paged with qm := { states := [(7, { resident := true, dirty := true })] } }

/-- Queue 7's head waits for its page; queue 9's does not. -/
def missed : State :=
  { paged with qm := { states := [(7, { resident := true, pages := [9], miss := true }),
                                  (9, { resident := true, head := [0], pages := [10] })] } }

theorem wit_PagerCommands :
    let full := { paged with
      descs := [(0, { rind := { length := 4096, queue := 7 }, cellCount := 16, firstCell := 5 })]
      press := { link := (List.range 15).map (fun i => (5 + i, 6 + i)) } }
    let voq := { missed with
      bank0 := { tbl := [(tblKey 0x0D 0 7, 1)] }
      fabric := { voqs := [(7, { grants := [(0, 0, 104)] })] } }
    let both := { paged with qm := { copyLost := [(15, 0), (15, 1)] } }
    (qst up 7).resident = false ∧ headWaits up = false ∧ residentCount up < 32768 ∧ copyGood up 7 0 = true
    ∧ headWaits missed = true ∧ (qst missed 9).miss = false ∧ (qst missed 7).miss = true
    ∧ (qst dirtied 7).resident = true ∧ (qst dirtied 7).dirty = true
    ∧ (qst dirtied 7).lastUsed + rwField dirtied .qcache 0 15 0 * 10 ^ 6 ≤ dirtied.now ∧ headWaits dirtied = false
    ∧ fetchWaits dirtied = false ∧ (∀ p ∈ dirtied.qm.states, pageDue dirtied p.2 = false)
    ∧ (qst full 7).tail = [0] ∧ (∀ i ∈ (qst full 7).tail, descOk full (desc full i) = true ∧ frameBad full (desc full i) = false)
    ∧ canClaim full 5 1 1 = true ∧ isDeclared full (ownerName 5 0) = false ∧ pageOutServed full 7 = true
    ∧ pageFull full (qst full 7) = true
    ∧ stagedSince { full with now := 10 ^ 12 } (qst full 7) + rwField full .pager 0 7 0 * 10 ^ 6 ≤ 10 ^ 12
    ∧ pageOutServed up 7 = false
    ∧ (qst missed 7).resident = true ∧ (qst missed 7).pages ≠ [] ∧ (qst missed 7).reading = false
    ∧ headLow missed (qst missed 7) = true ∧ readsOpen missed < 1024 ∧ (qst missed 9).pages ≠ []
    ∧ headLow missed (qst missed 9) = true ∧ prefetchWanted voq 7 = true ∧ (qst voq 7).miss = true
    ∧ prefetchWanted up 7 = false
    ∧ copyGood both 983040 0 = false ∧ copyGood both 983040 1 = false ∧ copyGood up 983040 1 = true := by
  and_intros <;> first | decide +kernel | rfl
theorem wit_PagerCommands_done :
    let r := { paged with qm := { states := [(7, { resident := true, pages := [9], reading := true })] } }
    let d := { r with vat := { declared := [ownerName 5 0] } }
    let f : PageFrame := ({ rind := { length := 64 }, cellCount := 1 }, List.replicate 64 0)
    (qst r 7).reading = true ∧ (qst r 7).pages = 9 :: [] ∧ (chan r (9 / 6291456)).ready = true
    ∧ (chan { r with cave := {} } (9 / 6291456)).ready = false ∧ (chan r (9 / 6291456)).retired.length < 4096
    ∧ restoreFrames 7 0 [] r = (some [], r) ∧ (restoreFrames 7 0 [f] d).1 = none
    ∧ (qst { r with qm := { states := [(7, { flushing := true })] } } 7).flushing = true := by
  and_intros <;> first | decide +kernel | rfl
/-- Page 9 with a header of zeros, whose CRC-32C stands in its last four bytes. -/
theorem wit_PagerCommands_header : let m : Memory :=
      (leBytes 4 (crc32c 0 (List.replicate 60 0))).zipIdx.map (fun b => (pageOffset 9 + 60 + b.2, b.1))
    leAt (memRead m (pageOffset 9) 64) 60 4 = crc32c 0 ((memRead m (pageOffset 9) 64).take 60) := by
  decide +kernel
/-- One copy of a block is lost, and a buffer of another channel of its side can be had. -/
theorem wit_PagerCommands_copy : copyGood paged 7 0 = false ∧ copyGood paged 7 1 = true
    ∧ ∃ i u, takeCopyBuffer 0 paged = (some i, u) := by
  have h : canClaim paged 6 1 1 = true ∧ 0 < freeIn (takenOf paged 6)
      (((List.range 4).filter (fun i => (chan paged (4 * 0 + i)).ready)).map
        (fun i => (768 * (4 * 0 + i), pool6Per paged))) := by decide +kernel
  obtain ⟨i, u, hi⟩ := takeFrom_some (o := ownerName 5 0) h.2
  refine ⟨by decide +kernel, by decide +kernel, i, u, ?_⟩
  unfold takeCopyBuffer
  rw [if_pos h, hi]
theorem wit_SchedulerCommands : let s := { up with
      sched := { wheel := [(0x2FFFFF, 5)], stops := [(9 * 511 + 8, 5)]
                 gates := [(511, { running := some {}, pending := some { start := 0 } })] }, now := 5 }
    let far := { up with sched := { wheel := [(0x2FFFFF, 2500 * 65536 * 64)], wheelAt := [(0x2FFFFF, (1, 1))] }
                         now := 2500 * 64 }
    let old := { queued with descs := [(0, { rind := { length := 64, queue := 7, epoch := 5 }, cellCount := 1, firstCell := 5 })] }
    (pipeOf up 31).faulted = false ∧ (pipeOf { up with pipes := [(31, { faulted := true })] } 31).faulted = true
    ∧ headDrop queued 7 (desc queued 0) = none ∧ (qst queued 7).head = [0] ∧ (qst queued 7).resident = true
    ∧ headDrop old 7 (desc old 0) = some Wh.epochAhead ∧ (qst old 7).head = [0] ∧ domainOn old 13 = true
    ∧ descOk old (desc old 0) = true
    ∧ mget 0 s.sched.wheel 0x2FFFFF ≠ 0 ∧ mget 0 s.sched.wheel 0x2FFFFF ≤ s.now
    ∧ far.now < mget 0 far.sched.wheel 0x2FFFFF
    ∧ (mget (0, 0) far.sched.wheelAt 0x2FFFFF).2 * wheelSlotPs (mget (0, 0) far.sched.wheelAt 0x2FFFFF).1 ≤ far.now
    ∧ mhas s.sched.stops (9 * 511 + 1 + 7) = true ∧ mget 0 s.sched.stops (9 * 511 + 8) ≤ s.now ∧ arrivalsWait s = false
    ∧ (gateRun s 511).running = some {} ∧ (gateRun s 511).pending = some { start := 0 } ∧ 0 ≤ tileTime s 511 := by
  and_intros <;> first | decide +kernel | rfl

/-! ## Time -/

theorem wit_TimeInstructions : let s := setRw .time 1 5 (withK [(2, 0x100), (3, 5), (4, 0xFFFFFFFFFFFA0000)] up)
    let a := { s with time := { actions := [(5, { due := 1 })], notSet := false } }
    startsDev s 0 .timeRead ∧ startsDev s 0 .timeSet ∧ recordFault s 0 .write 0x100 = none
    ∧ recordFault s 0 .read 0x100 = none ∧ recordTime (loadBytes s 0 0x100 16) = some 0 ∧ timeBusy s = false
    ∧ s.time.notSet = true ∧ recordTime (leBytes 8 0 ++ leBytes 4 1000000000 ++ leBytes 4 0) = none
    ∧ rwField s .time 1 29 0 * 2 ^ 16 = 5 * 2 ^ 16 ∧ (kget s 0 3).toInt.natAbs ≤ 5 * 2 ^ 16
    ∧ 5 * 2 ^ 16 < (kget s 0 4).toInt.natAbs ∧ timeBusy { s with time := { state := .switchover } } = true
    ∧ (kget s 0 5).toNat ≤ rwField s .time 2 18 0 ∧ rwField s .time 2 18 0 < (kget s 0 4).toNat
    ∧ (kget s 0 3).toNat < 2 ^ 32 ∧ 2 ^ 32 ≤ (kget s 0 4).toNat ∧ 64 ≤ (kget s 0 4).toNat ∧ (kget s 0 3).toNat < 64
    ∧ startsDev a 0 .timeSet ∧ mhas a.time.actions 5 = true ∧ a.time.count < (mget {} a.time.actions 5).due
    ∧ mhas a.time.actions 63 = false ∧ startsDev record 0 .timeSet
    ∧ record.time.count < 20000 * 2 ^ 16 := by
  simp only [startsDev, starts, inStep]; and_intros <;> first | decide +kernel | rfl
theorem wit_TimeEvents : let a := { up with time := { actions := [(63, { due := 0, addr := regAddr .time 1, val := 5 })] } }
    let w : Slew := { left := 0, rate := 1 }
    (({ up with time := { slew := some w } } : State).time.slew = some w ∧ w.left = 0)
    ∧ (∀ q ∈ a.time.actions, actionClock { due := 0, addr := regAddr .time 1, val := 5 } < actionClock q.2
        ∨ (actionClock { due := 0, addr := regAddr .time 1, val := 5 } = actionClock q.2 ∧ 63 ≤ q.1)) ∧
    domainOn up 2 = true ∧ todSec up = up.time.lastSecond ∧ todSec { up with time := { count := 10 ^ 9 * 2 ^ 16 } } ≠ 0
    ∧ up.pending.any beforeBoundary = false
    ∧ ({ up with pending := [.ppsEdge 2 true] } : State).pending.any beforeBoundary = true
    ∧ rwField (setRw .time 0 1 up) .time 0 1 0 = 1
    ∧ a.time.actions.find? (fun q => q.1 == 63) = some (63, { due := 0, addr := regAddr .time 1, val := 5 })
    ∧ accessOf a .timeEngine (regAddr .time 1) = .mapped .time 1 ∧ plainReg .time 1 = true ∧ (specOf .time 1).rw ≠ 0
    ∧ regRefusal a .time 1 (regWr a .time 1 0 5) = none ∧ a.time.count = 0
    ∧ (engine { up with engines := [(1, { run := .halted })] } eTime).run = .halted := by
  and_intros <;> first | decide +kernel | rfl

/-! ## Tables -/

/-- The unit with the Triad's registers and bytes at address 0x100 of its memory. -/
def withBytes (rs : SMap Word64) (bs : List Byte) (s : State) : State :=
  let cells := (List.range bs.length).filterMap (fun i =>
    let b := bs.getD i 0
    if b = 0 then none else some (0x100 + i, b))
  setEngine 0 { engine s 0 with gpr := rs, mem := cells } s

/-- The unit with an open shadow generation. -/
def opened : State := { up with epoch := { shadowOpen := true } }

/-- A table operation's operands: handle, image or key at 0x100, a third operand. -/
def tblRegs (h c : Nat) : SMap Word64 := [(2, BitVec.ofNat 64 h), (3, 0x100), (4, BitVec.ofNat 64 c)]

/-- A handle. -/
def hnd (type inst idx : Nat) : Nat := type * 2 ^ 56 + inst * 2 ^ 32 + idx

/-- A Krenus-P image of one bundle of NOPs, for ingress. -/
def nops : List Byte :=
  let hdr := leBytes 4 0x434E524B ++ leBytes 2 1 ++ leBytes 1 1 ++ List.replicate 9 0 ++ leBytes 4 32
    ++ List.replicate 40 0
  let text := List.replicate 32 0
  hdr ++ leBytes 4 (crc32c 0 (hdr ++ text)) ++ text

/-- Each of the four gates of R127 turns some state's operation away. -/
theorem wit_writeGates : let h := hnd 9 0 262143
    let off := { up with power := { on := 2 ^ 30 - 1 - 2 ^ 7 } }
    let busy := { up with epoch := { shadowOpen := true, commit := .pending } }
    startsDev up 0 .tbl ∧ handleFits .wr (hnd 9 0 262144) = false ∧ handleFits .wr h = true
    ∧ tableReady off 9 0 262143 = false ∧ startsDev off 0 .tbl ∧ tableReady up 9 0 262143 = true
    ∧ up.epoch.shadowOpen = false ∧ tableReady busy 9 0 262143 = true ∧ busy.epoch.commit ≠ .none
    ∧ handleFits .ins (hnd 1 0 0) = true ∧ handleFits .del (hnd 2 0 1) = false ∧ handleFits .prog (hnd 11 31 63) = true
    ∧ tableReady off 11 31 63 = false ∧ handleFits .prog (hnd 11 32 0) = false ∧ tableReady off 1 0 0 = true
    ∧ tableReady { up with power := { on := 2 ^ 30 - 1 - 2 ^ 9 } } 1 0 0 = false := by
  simp only [startsDev, starts, inStep]; and_intros <;> first | decide +kernel | rfl
theorem wit_IndexedTables_wr : let s := withBytes (tblRegs (hnd 9 0 262143) 0) [] opened
    let n := withBytes (tblRegs (hnd 6 0 786431) 0) [] opened
    let b := withBytes (tblRegs (hnd 9 0 262143) 0) [0x10] opened
    startsDev s 0 .tbl ∧ tblGate s .wr (hnd 9 0 262143) = none ∧ spanFault s 0 .read 0x100 32 = none
    ∧ (kget s 0 2).toNat = hnd 9 0 262143 ∧ imageOk s 9 0 262143 (leNat (loadBytes s 0 0x100 32)) = true
    ∧ startsDev n 0 .tbl ∧ tblGate n .wr (hnd 6 0 786431) = none
    ∧ nodeImageOk (leNat (loadBytes n 0 0x100 64)) = true ∧ nodeBusy n 786431 = false
    ∧ startsDev b 0 .tbl ∧ imageOk b 9 0 262143 (leNat (loadBytes b 0 0x100 32)) = false := by
  simp only [startsDev, starts, inStep]; and_intros <;> first | decide +kernel | rfl
theorem wit_IndexedTables_map : let s := withBytes (tblRegs (hnd 3 0 2047) 0) [0x3F, 0x40] opened
    let b := withBytes (tblRegs (hnd 3 0 2047) 0) [0x40] opened
    startsDev s 0 .tbl ∧ tblGate s .wr (hnd 3 0 2047) = none ∧ spanFault s 0 .read 0x100 8 = none
    ∧ mapImageOk (leNat (loadBytes s 0 0x100 8)) = true ∧ shadowRoutes s = [] ∧ s.routes.slices = []
    ∧ allPlacements s = [] ∧ queuesTake s [] = true
    ∧ (∀ k < 64, sliceRows s k + reservedRows s k ≤ 40960) ∧ (∀ r ∈ shadowRoutes s, 2047 ∉ coveredIndexes s r)
    ∧ startsDev b 0 .tbl ∧ mapImageOk (leNat (loadBytes b 0 0x100 8)) = false := by
  simp only [startsDev, starts, inStep]; and_intros <;> first | decide +kernel | rfl
theorem wit_IndexedTables_group : let s := withBytes (tblRegs (hnd 5 0 65535) 0) [0, 2] opened
    startsDev s 0 .tbl ∧ tblGate s .wr (hnd 5 0 65535) = none ∧ spanFault s 0 .read 0x100 2064 = none
    ∧ groupCount (leNat (loadBytes s 0 0x100 16)) = 512 ∧ groupImageOk (leNat [0, 2]) = true
    ∧ memberWords (bankOf s (s.epoch.live + 1)) - groupWords (tblGet s (s.epoch.live + 1) 5 0 65535)
        + groupWords (leNat [0, 2]) ≤ 1048576 := by
  simp only [startsDev, starts, inStep]; and_intros <;> first | decide +kernel | rfl
theorem wit_IndexedTables_all : let h := hnd 0x0A 0xFFFF 0
    let s := withBytes (tblRegs h 0) [] opened
    startsDev s 0 .tbl ∧ handleFits .wr h = true ∧ tblGate s .wr h = none ∧ spanFault s 0 .read 0x100 256 = none
    ∧ hInst h = 0xFFFF ∧ imageOk s 0x0A 0xFFFF 0 (leNat (loadBytes s 0 0x100 256)) = true := by
  simp only [startsDev, starts, inStep]; and_intros <;> first | decide +kernel | rfl
theorem wit_IndexedTables_away :
    let used := withBytes (tblRegs (hnd 6 0 5) 0) [] { opened with bank0 := { tbl := [(tblKey 7 0 0, 1 + 6 * 2 ^ 96)] } }
    let clash := withBytes (tblRegs (hnd 0x0D 0 5) 0) [2, 0, 0, 0, 64] { opened with
      bank1 := { tbl := [(tblKey 0x0D 0 6, 2)] } }
    let prof := withBytes (tblRegs (hnd 0x0A 0 0) 0) [2] opened
    startsDev clash 0 .tbl ∧ tblGate clash .wr (hnd 0x0D 0 5) = none
    ∧ queueImageOk (leNat (loadBytes clash 0 0x100 32)) = true
    ∧ queueClash clash 5 (leNat (loadBytes clash 0 0x100 32)) = true
    ∧ startsDev prof 0 .tbl ∧ tblGate prof .wr (hnd 0x0A 0 0) = none ∧ spanFault prof 0 .read 0x100 256 = none
    ∧ profileImageOk (leNat (loadBytes prof 0 0x100 256)) = false
    ∧ startsDev used 0 .tbl ∧ tblGate used .wr (hnd 6 0 5) = none ∧ spanFault used 0 .read 0x100 64 = none
    ∧ nodeImageOk (leNat (loadBytes used 0 0x100 64)) = true ∧ nodeBusy used 5 = true := by
  simp only [startsDev, starts, inStep]; and_intros <;> first | decide +kernel | rfl
theorem wit_IndexedTables_queue : let s := withBytes (tblRegs (hnd 0x0D 0 5) 0) [] opened
    startsDev s 0 .tbl ∧ tblGate s .wr (hnd 0x0D 0 5) = none
    ∧ imageOk s 0x0D 0 5 (leNat (loadBytes s 0 0x100 32)) = true ∧ queueClash s 5 (leNat (loadBytes s 0 0x100 32)) = false := by
  simp only [startsDev, starts, inStep]; and_intros <;> first | decide +kernel | rfl
theorem wit_IndexedTables_rd : let s := withBytes (tblRegs (hnd 9 0 262143) 1) [] opened
    let c := withBytes (tblRegs (hnd 9 0 262143) 1) [] up
    let p := withBytes (tblRegs (hnd 11 31 63) 0) [] up
    startsDev p 0 .tbl ∧ tblGate p (.rd false) (hnd 11 31 63) = none ∧ spanFault p 0 .write 0x100 64 = none ∧
    startsDev s 0 .tbl ∧ (kget s 0 4).toNat = 1 ∧ tblGate s (.rd true) (hnd 9 0 262143) = none
    ∧ tblGate s (.rd false) (hnd 9 0 0) = none ∧ spanFault s 0 .write 0x100 32 = none
    ∧ startsDev c 0 .tbl ∧ c.epoch.shadowOpen = false ∧ handleFits (.rd true) (hnd 9 0 262143) = true
    ∧ tableReady c 9 0 262143 = true ∧ 2 ≤ (kget (withBytes (tblRegs 0 2) [] up) 0 4).toNat := by
  simp only [startsDev, starts, inStep]; and_intros <;> first | decide +kernel | rfl
theorem wit_IndexedTables_prog : let s := fun n bs => withBytes (tblRegs (hnd 11 31 63) n) bs opened
    let g := s 96 nops
    let b := s 65535 []
    startsDev g 0 .tbl ∧ tblGate g .prog (hnd 11 31 63) = none ∧ spanFault g 0 .read 0x100 96 = none
    ∧ loaderReason g (g.epoch.live + 1) 31 false 96 (leNat (loadBytes g 0 0x100 96)) = 0
    ∧ startsDev b 0 .tbl ∧ spanFault b 0 .read 0x100 65535 = none
    ∧ loaderReason (s 1 []) 1 31 false 1 (leNat (loadBytes (s 1 []) 0 0x100 1)) ≠ 0
    ∧ (kget (s 65536 []) 0 4).toNat = 65536 ∧ (kget (s 0 []) 0 4).toNat = 0 := by
  simp only [startsDev, starts, inStep]; and_intros <;> first | decide +kernel | rfl
theorem wit_IndexedTables_progAll : let s := withBytes (tblRegs (hnd 11 0xFFFF 63) 96) nops opened
    startsDev s 0 .tbl ∧ tblGate s .prog (hnd 11 0xFFFF 63) = none ∧ hInst (hnd 11 0xFFFF 63) = 0xFFFF
    ∧ spanFault s 0 .read 0x100 96 = none
    ∧ (∀ p < 32, loaderReason s (s.epoch.live + 1) p false 96 (leNat (loadBytes s 0 0x100 96)) = 0) := by
  simp only [startsDev, starts, inStep]; and_intros <;> first | decide +kernel | rfl
theorem wit_KeyedTables_l2 : let k := leBytes 16 (5 * 2 ^ 48 + 7)
    let s := withBytes (tblRegs (hnd 1 0 0) 0x200) k opened
    let d : L2Data := { fixed := true }
    let key := l2ImageKey (5 * 2 ^ 48 + 7)
    let place := (l2Place s key).getD (0, false)
    let filled := (l2Candidates s key).map (fun p => (p, ({ key := p, c0 := some d, c1 := some d } : L2Entry)))
    let full := { s with l2 := { entries := filled } }
    let has := { s with l2 := { entries := [(place.1, { key := key, c1 := some d })] } }
    let dyn := { s with l2 := { entries := [(place.1, { key := key, c1 := some {} })] } }
    startsDev s 0 .tbl ∧ tblGate s .ins (hnd 1 0 0) = none ∧ spanFault s 0 .read 0x100 16 = none
    ∧ leNat (loadBytes s 0 0x100 16) = 5 * 2 ^ 48 + 7 ∧ (l2Place s key).isSome = true
    ∧ zeroBits (5 * 2 ^ 48 + 7) 63 62 = true ∧ zeroBits (5 * 2 ^ 48 + 7) 127 85 = true
    ∧ l2Place full key = none ∧ l2Find full key = none
    ∧ tblGate has .del (hnd 1 0 0) = none ∧ l2Find has key = some (place.1, { key := key, c1 := some d })
    ∧ l2Find dyn key = some (place.1, { key := key, c1 := some {} })
    ∧ tblGate s .find (hnd 1 0 0) = none ∧ spanFault s 0 .write 0x200 16 = none
    ∧ keyedFind s 1 (loadBytes s 0 0x100 16) = none ∧ (keyedFind { has with epoch := { live := 1 } } 1 k).isSome = true := by
  simp only [startsDev, starts, inStep]; and_intros <;> first | decide +kernel | rfl
theorem wit_KeyedTables_route : let k := leBytes 4 (3 + 8 * 2 ^ 16) ++ leBytes 12 0 ++ [10] ++ List.replicate 15 0
    let s := withBytes (tblRegs (hnd 2 0 0) 0x200) k opened
    let r := (routeOfImage (loadBytes s 0 0x100 32)).1
    let fresh := (routeSlices s 1 r).filter (fun n => !sliceHas s n r && !placementQueued s n r)
    let has := { s with routes := { queue0 := [{ slice := 0, route := r }] } }
    startsDev s 0 .tbl ∧ tblGate s .ins (hnd 2 0 0) = none ∧ spanFault s 0 .read 0x100 32 = none
    ∧ routeImageOk (loadBytes s 0 0x100 32) = true ∧ fresh = [0] ∧ sliceRoom s r 0 = true ∧ queuesTake s fresh = true
    ∧ tblGate has .del (hnd 2 0 0) = none ∧ routeKeyOk (loadBytes has 0 0x100 32) = true
    ∧ (allPlacements has).any (fun p => sameKey r p.route) = true
    ∧ tblGate s .find (hnd 2 0 0) = none ∧ spanFault s 0 .write 0x200 32 = none
    ∧ keyedFind s 2 (loadBytes s 0 0x100 32) = none
    ∧ routeKeyOk [1, 0, 33, 0] = false ∧ routeImageOk [1, 0, 33, 0] = false
    ∧ (routeFind { has with routes := { slices := [(0, [r.withResult 1 (some 1)])] } } 1 r).isSome = true := by
  simp only [startsDev, starts, inStep]; and_intros <;> first | decide +kernel | rfl

theorem wit_LayerTwoUpkeep : let s := withK [(2, 1), (3, 0xFFFFFFFF), (4, 2), (5, 0x100000000)] up
    let going := { s with l2 := { rehash := [(1, 1)], entries := [(5, { key := 9, c0 := some {} })] } }
    let d : L2Data := { fixed := true }
    let p := ((l2Place up 9).getD (0, false)).1
    let q := { up with l2 := { learns := [(9, 0, 4)], entries := [(p, { key := 9, c0 := some {} })] } }
    let st := { up with l2 := { learns := [(9, 0, 4)], entries := [(p, { key := 9, c0 := some d })] } }
    let hit := { up with l2 := { entries := [(0, { key := 9, hit := true, c0 := some {} })] } }
    let idle := { up with l2 := { entries := [(0, { key := 9, c0 := some {} })] } }
    let old := { setRw .time 1 0 up with
      bank0 := { rwl := mset 0 up.bank0.rwl (regKey .turner 0) 300 }
      bank1 := { rwl := mset 0 up.bank1.rwl (regKey .turner 0) 300 }
      l2 := { entries := [(0, { key := 9, idle := 1, c0 := some {} })] } }
    startsDev s 0 .tbl ∧ (kget s 0 2).toNat < 2 ∧ (kget s 0 3).toNat < 2 ^ 32 ∧ mget 0 s.l2.rehash 1 ≠ 1
    ∧ startsDev going 0 .tbl ∧ mget 0 going.l2.rehash 1 = 1 ∧ 2 ≤ (kget s 0 4).toNat ∧ 2 ^ 32 ≤ (kget s 0 5).toNat
    ∧ (∀ p ∈ going.l2.entries, p.1 / 2 ^ 20 ≠ 1)
    ∧ l2Find q 9 = some (p, { key := 9, c0 := some {} }) ∧ l2Find st 9 = some (p, { key := 9, c0 := some d })
    ∧ l2Find up 9 = none ∧ l2Place up 9 = some (p, false)
    ∧ hit.l2.entries.find? (fun x => x.1 == 0) = some (0, { key := 9, hit := true, c0 := some {} })
    ∧ (({ key := 9, hit := true, c0 := some {} } : L2Entry).mark ≠ (hit.l2.sweepHalf, hit.l2.sweepFrom + 1))
    ∧ hit.l2.sweepFrom + (0 * hit.l2.sweepHalf + 2097151) / 2097152 ≤ hit.now ∧ hit.now < 0 + 625
    ∧ arrivalsWait hit = false
    ∧ idle.l2.entries.find? (fun x => x.1 == 0) = some (0, { key := 9, c0 := some {} })
    ∧ old.l2.entries.find? (fun x => x.1 == 0) = some (0, { key := 9, idle := 1, c0 := some {} })
    ∧ rwlField old .turner 0 19 0 ≠ 0 ∧ arrivalsWait old = false ∧ old.now < 625
    ∧ (({ key := 9 } : L2Entry).data 0 = none) ∧ q.epoch.shadowOpen = false
    ∧ accepts up .triad (.l2b 0) 20 0 (BitVec.toNat 1#32) ∧ (1#32).getLsbD 0 = true ∧ up.l2.flush = none
    ∧ accepts up .triad (.l2b 0) 20 0 (BitVec.toNat 0xF#32)
    ∧ ({ up with l2 := { flush := some 0 } } : State).l2.flush = some 0 := by
  simp only [startsDev, starts, inStep, accepts]; and_intros <;> first | decide +kernel | rfl
theorem wit_RouteUpkeep : let p : Placement := { slice := 63, route := { length := 32 } }
    let f := { up with tree := { frags := [(65535, { key := [1], since := 0 })] }, now := 10 ^ 15 }
    ({ up with routes := { queue0 := [p] } } : State).routes.queue0 = [p]
    ∧ ({ up with routes := { queue1 := [p] } } : State).routes.queue1 = [p] ∧ 40959 < 40960
    ∧ badEntry up 2 0 (63 * 40960 + 40959) = false
    ∧ badEntry { up with badEntries := [tblKey 2 0 (63 * 40960 + 40959)] } 2 0 (63 * 40960 + 40959) = true
    ∧ mhas f.tree.frags 65535 = true ∧ (mget {} f.tree.frags 65535).awaiting = false
    ∧ (mget {} f.tree.frags 65535).since + rwlField f .frag 0 14 0 * 10 ^ 9 < f.now := by
  and_intros <;> first | decide +kernel | rfl

/-! ## MACs, pipes and the control port -/

/-- Port 0 alone exists, one lane at 106.25 Gb/s, and is up. -/
def wired : State := setRwl 0 .xbar 32 1 { up with macs := [(0, { up := true })] }

/-- A frame: its bytes without frame check sequence, padded, and the frame check sequence. -/
def framed (bs : List Byte) : List Byte := padFrame bs ++ fcsOf (padFrame bs)

/-- A PAUSE frame. -/
def pauseFrame (quanta : Nat) : List Byte :=
  framed (beBytes 6 pauseAddress ++ beBytes 6 2 ++ beBytes 2 0x8808 ++ beBytes 2 1 ++ beBytes 2 quanta)

theorem wit_SchedulerCommands_selection :
    let s := { wired with
      bank0 := { wired.bank0 with tbl := [(tblKey 0x0D 0 7, 2), (tblKey 0x0E 0 0, 19)] }
      qm := { states := [(7, { resident := true, head := [0], depth := 1 })] }
      descs := [(0, { rind := { length := 64, queue := 7 }, cellCount := 1, firstCell := 5 })] }
    let u := refreshPorts ((List.range 16).map (fun n => n)) s
    (pipeOf s 0).faulted = false ∧ mget 0 u.sched.roundRobin 0 = 0
    ∧ ((List.range 16).map (fun i => (0 + i) % 16)).find? (fun n => portTakes u n && (selectBundle u n).isSome) = some 0
    ∧ selectBundle u 0 = some 0 ∧ (bundleRun u 0 0).offer = some 7 ∧ (qst u 7).head = [0] := by
  and_intros <;> first | decide +kernel | rfl

/-- A PFC frame that stops priority 0 for 5 quanta and ends the stop of priority 7. -/
def pfcFrame : List Byte :=
  framed (beBytes 6 pauseAddress ++ beBytes 6 2 ++ beBytes 2 0x8808 ++ beBytes 2 0x0101 ++ beBytes 2 0x81
    ++ beBytes 2 5 ++ List.replicate 14 0)

theorem wit_FrameReception_pfc : let p := setRwl 0 (.mac 0) 0 (9216 + 2 ^ 15) wired
    portUp p 0 = true ∧ 0 ∉ p.triad.stopped ∧ macDrop p 0 pfcFrame .clean = none ∧ beAt pfcFrame 12 2 = 0x8808
    ∧ beAt pfcFrame 14 2 = 0x0101 ∧ bitOf (beAt pfcFrame 16 2) 0 = true ∧ bitOf (beAt pfcFrame 16 2) 7 = true
    ∧ 0 < quantaPs p 0 (beAt pfcFrame 18 2) ∧ quantaPs p 0 (beAt pfcFrame 32 2) = 0
    ∧ LineFault.clean ≠ .overrun := by
  and_intros <;> first | decide +kernel | rfl
theorem wit_FrameReception_drops :
    let bad := { wired with pipes := [(0, { faulted := true })] }
    let long := { wired with pipes := [(0, { fifo := [{ bytes := List.replicate 64 0 }] })] }
    macDrop wired 0 (framed [1]) .overrun = none
    ∧ macDrop bad 0 (framed [1]) .clean = none ∧ (pipeOf bad 0).faulted = true ∧ portUp bad 0 = true
    ∧ backlogBytes long 0 = 64 ∧ (pipeOf long 0).faulted = false := by
  and_intros <;> first | decide +kernel | rfl
theorem wit_FrameReception : let p := setRwl 0 (.mac 0) 0 (9216 + 2 ^ 14) wired
    portUp up 511 = false ∧ portUp wired 0 = true ∧ 0 ∉ wired.triad.stopped
    ∧ macDrop wired 0 (framed [1]) .clean = none ∧ beAt (framed [1]) 12 2 ≠ 0x8808 ∧ (pipeOf wired 0).faulted = false
    ∧ backlogBytes wired 0 + (framed [1]).length ≤ 2 ^ 20 ∧ macDrop wired 0 (framed [1]) .cut = some Wh.frameCut
    ∧ macDrop wired 0 (List.replicate 63 0) .clean = some Wh.undersize
    ∧ portUp p 0 = true ∧ macDrop p 0 (pauseFrame 1) .clean = none ∧ beAt (pauseFrame 1) 12 2 = 0x8808
    ∧ beAt (pauseFrame 1) 14 2 = 1 ∧ 0 < quantaPs p 0 (beAt (pauseFrame 1) 16 2)
    ∧ macDrop p 0 (pauseFrame 0) .clean = none ∧ quantaPs p 0 (beAt (pauseFrame 0) 16 2) = 0
    ∧ 0 ∈ ({ wired with triad := { stopped := [0] } } : State).triad.stopped
    ∧ portUp { wired with triad := { stopped := [0] } } 0 = true := by
  and_intros <;> first | decide +kernel | rfl

theorem wit_PipeSequences : let f : RxFrame := { port := 511, bytes := framed [1] }
    let s := { up with pipes := [(31, { fifo := [f] })] }
    let bad := { up with pipes := [(31, { fifo := [f], faulted := true })] }
    let e := { up with enqPath := [{ desc := 0 }], descs := [(0, { rind := { length := 64, queue := 7 } })] }
    let e2 := { e with bank0 := { tbl := [(tblKey 0x0D 0 7, 3)] } }
    let e3 := { e2 with qm := { states := [(7, { resident := true, head := [1], depth := 1 })] } }
    let it : EgressItem := { desc := 0, queue := 7, port := 0 }
    let g := { wired with
      pipes := [(0, { egress := [it] })]
      descs := [(0, { rind := { length := 64, queue := 7 }, cellCount := 1, firstCell := 5, edit := some [1, 2] })] }
    (pipeOf s 31).fifo = [f] ∧ f.port / 16 = 31 ∧ (pipeOf s 31).faulted = false ∧ (pipeOf s 31).paused = false
    ∧ domainOn s 7 = true ∧ pathHeld s 31 = false
    ∧ pathHeld { s with enqPath := [{ owner := ownerName 1 31 }] } 31 = true ∧ (pipeOf bad 31).fifo = [f] ∧ (pipeOf bad 31).faulted = true
    ∧ e.enqPath = [{ desc := 0 }] ∧ (enqueueDecision e 7 0 0 64).isSome = true
    ∧ enqueueDecision e2 7 0 0 64 = none ∧ (qst e2 7).resident = false ∧ e.now < 1
    ∧ enqueueDecision e3 7 0 0 64 = none ∧ (qst e3 7).resident = true ∧ (qst e3 7).paged = false ∧ (qst e3 7).head ≠ []
    ∧ 0 ∉ (qst e3 7).head ∧ (∀ j ∈ e3.qm.journal, j.1 ≠ 7) ∧ ((qcfg e3 7).threshKib = 0 ∨ anyChanReady e3 = false)
    ∧ frameBad g (desc g 0) = false ∧ [1, 2].length + 4 ≤ pipeField g 0 (.mac 0) 0 13 0
    ∧ (pipeOf g 0).egress = [it] ∧ (pipeOf g 0).faulted = false ∧ descOk g (desc g 0) = true
    ∧ (desc g 0).rind.version = 1 ∧ (desc g 0).edit = some [1, 2]
    ∧ (pipeOf { g with pipes := [(0, { egress := [it], faulted := true })] } 0).faulted = true := by
  and_intros <;> first | decide +kernel | rfl

theorem wit_FrameTransmission : let q := { wired with macs := [(0, { up := true, fcWaiting := some 0 })] }
    let d := { wired with macs := [(0, { up := true, queue := [{ bytes := [1], record := some 9 }] })] }
    let w := setRwl 0 (.mac 0) 0 (9216 + 2 ^ 16 + 2 ^ 18) wired
    let b := { setRwl 0 (.mac 0) 2 0 w with
      now := 10 ^ 12
      macs := [(0, { up := true, backlogStop := true })]
      pipes := [(0, { fifo := [{ bytes := [1] }] })] }
    portUp q 0 = true ∧ 0 ∉ q.triad.stopped ∧ (macOf q 0).busyUntil ≤ q.now ∧ (mget {} q.lanes 0).txRest = false
    ∧ (mget {} q.lanes 0).wakeUntil ≤ q.now ∧ (macOf q 0).fcWaiting = some 0
    ∧ portUp d 0 = true ∧ (macOf d 0).fcWaiting = none ∧ (macOf d 0).queue = [{ bytes := [1], record := some 9 }]
    ∧ 0 ≤ d.now ∧ (mget {} d.time.tsq 0).recs.length < 128
    ∧ (macOf b 0).backlogStop = true ∧ fcEnabled b 0 = true ∧ pipeField b 0 (.mac 0) 2 26 16 < backlogKib b 0
    ∧ (macOf b 0).stopAt + quantaPs b 0 (txQuanta b 0) / 2 ≤ b.now
    ∧ accepts w .triad (.mac 0) 3 0 (1 + 2 * b2n true) ∧ accepts w .triad (.mac 0) 3 0 (1 + 2 * b2n false)
    ∧ (macOf w 0).fcWaiting = none
    ∧ portUp w 0 = true ∧ lpiMode (laneMode w 0) = true ∧ pipeField w 0 (.mac 0) 0 18 18 = 1
    ∧ pipeField w 0 (.gate 0) 0 0 0 = 0 ∧ nothingToSend w 0 = true
    ∧ (macOf { w with now := 10 ^ 12 } 0).idleSince + pipeField w 0 (.mac 0) 5 9 0 * 10 ^ 6 ≤ 10 ^ 12 ∧ arrivalsWait w = false := by
  simp only [accepts]; and_intros <;> first | decide +kernel | rfl

/-- A control frame of session 9, channel 63, sequence 5, key slot 0 (the key 0), without operations. -/
def ctlBytes : List Byte :=
  List.replicate 12 0 ++ beBytes 2 0x88B5 ++ [1, 0, 63, 0] ++ beBytes 4 9 ++ beBytes 4 5 ++ List.replicate 18 0
    ++ beBytes 16 0xA9FE796AF57CDC73826E20398DE5D0FC ++ [0, 0, 0, 0]

/-- Queue 7 is the control port's and holds one frame; session 9 of channel 63 expects a sequence number. -/
def ctlState (seq : Nat) (bs : List Byte) : State :=
  let s := setRw .ctlport 0 1 { up with
    bank0 := { tbl := [(tblKey 0x0D 0 7, 3)] }
    qm := { states := [(7, { resident := true, head := [0], depth := 1 })] }
    descs := [(0, { rind := { length := bs.length, queue := 7 }, cellCount := 1, firstCell := 5 })]
    press := writeChain [5] bs {} }
  { s with ctl := { s.ctl with keys := [(0, some 0)], chans := [(63, { session := some 9, next := seq })] } }

theorem wit_tag : ctlTagOk (ctlState 5 ctlBytes) 14 (ctlBytes.take 60) = true := by decide +kernel
theorem wit_ControlFrames : let s := ctlState 5 ctlBytes
    let plain := ctlState 5 (framed [1])
    let wrong := ctlState 5 (framed (List.replicate 12 0 ++ beBytes 2 0x88B5 ++ [1, 0, 63, 1]))
    let ahead := ctlState 4 ctlBytes
    let flipped := { s with press := { s.press with bad := [5] } }
    let gone := { s with descs := [] }
    let old := { s with descs := [(0, { desc s 0 with rind := { (desc s 0).rind with version := 2 } })] }
    let stale := { s with ctl := { s.ctl with chans := [] } }
    let bs := ctlBytes
    frameBad s (desc s 0) = false ∧ (desc s 0).rind.version = 1 ∧ frameBad flipped (desc flipped 0) = true
    ∧ descOk flipped (desc flipped 0) = true ∧ descOk gone (desc gone 0) = false
    ∧ (desc old 0).rind.version ≠ 1 ∧ descOk old (desc old 0) = true ∧ frameBad old (desc old 0) = false
    ∧ (ctlChan ahead 63).next < beAt bs 22 4 ∧ beAt bs 22 4 ≤ (ctlChan ahead 63).next + 64
    ∧ (∀ f ∈ (ctlChan ahead 63).held, f.seq ≠ beAt bs 22 4)
    ∧ (ctlChan stale 63).session ≠ some (beAt bs 18 4) ∧ beAt bs 22 4 ≠ 0 ∧ bs.length ≤ 9216 ∧ 12 + 38 ≤ (bs.take 60).length ∧
    domainOn s 1 = true ∧ rwField s .ctlport 0 0 0 = 1 ∧ (qcfg s 7).role = 3 ∧ (qst s 7).resident = true
    ∧ (qst s 7).head = [0] ∧ descOk s (desc s 0) = true ∧ frameBytes s (desc s 0) = bs
    ∧ ctlTypeAt (frameBytes plain (desc plain 0)) = none ∧ plain.ctl.listener = none
    ∧ ctlTypeAt bs = some 12 ∧ s.triad.mode ≠ .halted ∧ leAt bs 14 1 = 1 ∧ leAt bs 15 1 % 2 = 0 ∧ bs.length = 64
    ∧ frameOps (beAt bs 30 2) 64 ((bs.take 44).drop 34) = some []
    ∧ (ctlChan s 63).session = some (beAt bs 18 4) ∧ beAt bs 22 4 = (ctlChan s 63).next ∧ (ctlChan s 63).held = []
    ∧ frameBytes (ctlState 6 bs) (desc (ctlState 6 bs) 0) = bs ∧ beAt bs 22 4 < (ctlChan (ctlState 6 bs) 63).next
    ∧ ctlTagOk wrong 14 ((frameBytes wrong (desc wrong 0)).take 60) = false := by
  and_intros <;> first | decide +kernel | rfl
theorem ctlTagOk_congr {s t : State} (h : Nat) (bs : List Byte) (hk : s.ctl.keys = t.ctl.keys) :
    ctlTagOk s h bs = ctlTagOk t h bs := by simp only [ctlTagOk, hk]
theorem wit_ControlFrames_duplicate : ctlTagOk (ctlState 6 ctlBytes) 14 (ctlBytes.take 60) = true := by
  have hk : (ctlState 6 ctlBytes).ctl.keys = (ctlState 5 ctlBytes).ctl.keys := by decide +kernel
  rw [ctlTagOk_congr 14 (ctlBytes.take 60) hk, wit_tag]

/-! ## The fabric -/

/-- A unit of a system: admitted as unit 0, with a live link in slot 0 toward unit 5, queue 5120 a VOQ toward it and
queue 7 an egress queue. -/
def meshed : State :=
  let s := setRwl 0 .fabric 0 1 up
  { s with
    bank0 := { s.bank0 with tbl := [(tblKey 0x0D 0 7, 2), (tblKey 0x0D 0 5120, 1), (tblKey 0x11 0 5, 1)] }
    fabric := { links := [(0, { up := true, live := true })] }
    roll := { s.roll with admitted := true, numbered := true }
    qm := { states := [(5120, { resident := true, head := [0], depth := 1 })] }
    descs := [(0, { rind := { length := 64, queue := 5120 }, cellCount := 1, firstCell := 5 })] }

theorem wit_FabricCredit : let r := { meshed with fabric := { meshed.fabric with received := [(streamKey 5 7, 1)] } }
    let g : Grant := { unit := 1023, id := 65535 }
    let l := { meshed with fabric := { grants := [g] }, now := 200000000 }
    let v := { meshed with fabric := { meshed.fabric with voqs := [(5120, { grants := [(0, 0, 104)] })] }, now := 150000000 }
    fabricOn meshed = true ∧ meshed.roll.admitted = true ∧ (qcfg meshed 5120).role = 1
    ∧ (raiseCount meshed 5120).count ≠ (raiseCount meshed 5120).sentCount ∧ (raiseCount meshed 5120).sentAt = 0
    ∧ 7 / 1024 = r.roll.unit ∧ (qcfg r 7).role = 2
    ∧ (qst r 7).depth * 64 + outstanding r 7 < rwlField r .fabric 5 13 0 * 1024 ∧ nextSource r 7 = some 5
    ∧ (r.fabric.grants.filter (fun g => g.unit == 5)).length < 32768 ∧ usable r (routeMask r false 5) 5 ≠ []
    ∧ canClaim r 0 2 40 = true ∧ canClaim r 7 2 40 = true ∧ isDeclared r (ownerName 4 (queueSide r 7)) = false
    ∧ r.fabric.late = [] ∧ queueSide r 7 ≤ 1
    ∧ l.fabric.grants.find? (fun g => g.unit == 1023 && g.id == 65535) = some g ∧ g.issuedAt + 200 * 10 ^ 6 ≤ l.now
    ∧ (∃ g ∈ (voqOf v 5120).grants, g.2.1 + 150 * 10 ^ 6 ≤ v.now)
    ∧ (qst v 5120).head = [0] ∧ voqEligible v 5120 (desc v 0) = true ∧ descOk v (desc v 0) = true
    ∧ frameBad v (desc v 0) = false ∧ frameBad { v with press := { bad := [5] } } (desc v 0) = true
    ∧ arrivalsWait l = false := by
  and_intros <;> first | decide +kernel | rfl

/-- The 276 bytes of a cell from unit 5 for unit 0. -/
def cellFrom (c : TxCell) : List Byte := cellBytes (cellHeader c 0 0 0) c.payload

theorem wit_LinkCells_crc (c : TxCell) (h : c.payload.length ≤ 256) : (cellFrom c).length = 276
    ∧ beAt (cellFrom c) 272 4 = crc32c 0 ((cellFrom c).take 272) :=
  Laws.cellBytes_crc _ _ (Laws.cellHeader_length c 0 0 0) h
theorem wit_LinkCells : let w := cellFrom { type := 6, hops := 1, source := 5, length := 128, payload := [1] }
    let d := cellFrom { type := 1, hops := 1, source := 5, first := true, length := 256, tag := 2 ^ 24 - 1 }
    let n := cellFrom { type := 2, seq := 4095, source := 5 }
    let s := meshed
    let t := { meshed with now := 10 ^ 9 }
    let a := { t with fabric := { meshed.fabric with
      links := [(511, { up := true, replay := [{ type := 1 }] })]
      partialFrames := [(1023 * 2 ^ 24 + 2 ^ 24 - 1, { since := 0 })]
      heldFrames := [(streamKey 1023 1048575, [{ seq := 2 ^ 32 - 1 }])] } }
    (linkOfNo s 1).up = false ∧ fabricOn up = false ∧ (linkOfNo s 0).up = true ∧ fabricOn s = true
    ∧ ([] : List Byte).length ≠ 276
    ∧ (parseCell w .plain).1.type = 6
    ∧ (parseCell w .plain).1.hops ≠ 0 ∧ (parseCell w .plain).1.seq = (linkOfNo s 0).rxSeq
    ∧ (parseCell d .plain).1.type = 1
    ∧ (parseCell d .plain).1.hops ≠ 0 ∧ (parseCell d .plain).1.seq = (linkOfNo s 0).rxSeq
    ∧ (parseCell d .plain).1.dest = s.roll.unit ∧ s.roll.numbered = true ∧ (parseCell d .plain).1.last = false
    ∧ mhas s.fabric.partialFrames (5 * 2 ^ 24 + (2 ^ 24 - 1)) = false
    ∧ (parseCell n .plain).1.type ≠ 0
    ∧ (parseCell n .plain).1.seq ≠ (linkOfNo s 0).rxSeq
    ∧ txAsleep t 0 = false ∧ (linkOfNo t 0).waiting = [] ∧ (linkOfNo t 0).sentAt + 10 ^ 6 ≤ t.now
    ∧ (linkOfNo a 511).up = true ∧ (linkOfNo a 511).replay ≠ [] ∧ (laneOf t 0).rxRest = false
    ∧ (linkOfNo t 0).heardAt + 10 * 10 ^ 6 ≤ t.now
    ∧ mhas a.fabric.partialFrames (1023 * 2 ^ 24 + 2 ^ 24 - 1) = true
    ∧ (mget {} a.fabric.partialFrames (1023 * 2 ^ 24 + 2 ^ 24 - 1)).since + 100 * 10 ^ 6 ≤ a.now
    ∧ heldOf a (streamKey 1023 1048575) = [{ seq := 2 ^ 32 - 1 }] := by
  and_intros <;> first | decide +kernel | rfl

/-- A NAK that acknowledges nothing. -/
def nakCell : List Byte := cellBytes ((cellHeader { type := 0, hops := 1, source := 5 } 0 0 0).set 6 0) [1]

theorem wit_LinkCells_nakCrc : nakCell.length = 276 ∧ beAt nakCell 272 4 = crc32c 0 (nakCell.take 272) :=
  Laws.cellBytes_crc _ _ (by rw [List.length_set]; exact Laws.cellHeader_length _ 0 0 0) (by decide)
theorem wit_LinkCells_control : let p := fun c => (parseCell (cellFrom c) .plain).1
    let req := p { type := 2, hops := 1, source := 5, length := 8, payload := [1, 0, 0, 0, 0, 0, 0, 9] }
    let grant := p { type := 3, hops := 1, source := 5, length := 8, payload := [1, 0, 0, 1, 0, 0, 0, 9] }
    let nak := parseCell nakCell .plain
    let low := { meshed with fabric := { meshed.fabric with links := [(0, { up := true, live := true, stuck := 16 })] } }
    req.type = 2 ∧ req.hops ≠ 0 ∧ req.length = 8 ∧ req.seq = (linkOfNo meshed 0).rxSeq ∧ req.dest = meshed.roll.unit
    ∧ beAt req.payload 0 8 ≠ 0 ∧ grant.type = 3 ∧ fieldOf (beAt grant.payload 0 8) 37 32 = 1
    ∧ nak.1.type = 0 ∧ bitOf (byteAt nak.1.payload 0).toNat 0 = true ∧ nak.2.1 = false
    ∧ (linkOfNo meshed 0).stuck < 16 ∧ 16 ≤ (linkOfNo low 0).stuck ∧ (linkOfNo low 0).up = true
    ∧ (p { type := 7, hops := 1 }).type = 7 ∧ (p { type := 1, hops := 0 }).hops = 0
    ∧ (p { type := 1, hops := 1, index := 65 }).index = 65 ∧ (p { type := 1, hops := 1, length := 257 }).length = 257
    ∧ (p { type := 1, hops := 1, index := 64, length := 256 }).index = 64
    ∧ (p { type := 1, hops := 1, index := 64, length := 256 }).length = 256 := by
  and_intros <;> first | decide +kernel | rfl
theorem wit_LinkCells_ends : let a := { meshed with
      now := 10 ^ 9
      fabric := { meshed.fabric with heldFrames := [(streamKey 5 7, [{ seq := 2 ^ 32 - 1, desc := 0, due := 10 ^ 9 }])] } }
    heldOf a (streamKey 5 7) = [{ seq := 2 ^ 32 - 1, desc := 0, due := 10 ^ 9 }] ∧ arrivalsWait a = false
    ∧ epochDiff a (desc a 0) = 0 ∧ ({ a with now := 10 ^ 9 - 1 } : State).now < 10 ^ 9 := by
  and_intros <;> first | decide +kernel | rfl

/-- A unit whose plan gives its own ID the number 1,023, and that may be master. -/
def cold : State := { setRwl 0 .fabric 0 1 (setRw .fabric 2 1 { up with now := 10 ^ 12 }) with
  roll := { plan := [(ownId, 1023)] } }

theorem wit_RollCall_cold : fabricOn cold = true ∧ cold.roll.admitted = false ∧ cold.roll.joinAt + 10 ^ 9 ≤ cold.now
    ∧ flipsOf cold .fabric 2 = 0 ∧ flipsOf cold .fabric 3 = 0
    ∧ coldMaster (followMaster { cold with roll := { cold.roll with joinAt := cold.now } }) = some 1023 := by
  refine ⟨by decide +kernel, by decide +kernel, by decide +kernel, by decide +kernel, by decide +kernel, ?_⟩
  have he : eligible (followMaster { cold with roll := { cold.roll with joinAt := cold.now } }) = true := by decide +kernel
  have hm : (followMaster { cold with roll := { cold.roll with joinAt := cold.now } }).roll.masterId = none := by
    decide +kernel
  have hf : (followMaster { cold with roll := { cold.roll with joinAt := cold.now } }).fabric.links = [] := by
    decide +kernel
  have hp : (followMaster { cold with roll := { cold.roll with joinAt := cold.now } }).roll.plan = [(ownId, 1023)] := rfl
  simp [coldMaster, planned, he, hm, hf, hp]

theorem wit_RollCall : let j : JoinInfo := ⟨7, none, 0, 0, 1, 1, 0, 0, false⟩
    let t := { meshed with now := 10 ^ 12 }
    let m := { t with roll := { t.roll with master := true, systemLevel := 1, plan := [(7, 9)], requests := [(0, 0, j)] } }
    let off := setRwl 0 .fabric 0 1 { up with now := 10 ^ 12 }
    let lost := { t with roll := { t.roll with peers := [(1023, { known := true, liveInc := true })] } }
    fabricOn t = true ∧ t.roll.announcedAt + 10 ^ 9 ≤ t.now ∧ t.roll.admitted = true
    ∧ t.roll.beatAt + rwlField t .fabric 4 9 0 * 10 ^ 6 ≤ t.now
    ∧ m.roll.requests = [(0, 0, j)] ∧ joinReason { m with roll := { m.roll with requests := [] } } j = 0
    ∧ planned m 7 = some 9 ∧ joinReason { t with roll := { t.roll with requests := [] } } j ≠ 0
    ∧ fabricOn off = true ∧ off.roll.admitted = false ∧ off.roll.joinAt + 10 ^ 9 ≤ off.now
    ∧ flipsOf off .fabric 2 = 0 ∧ flipsOf off .fabric 3 = 0
    ∧ coldMaster (followMaster { off with roll := { off.roll with joinAt := off.now } }) = none
    ∧ (peerOf lost 1023).liveInc = true ∧ 1023 ≠ lost.roll.unit ∧ arrivalsWait lost = false
    ∧ (peerOf lost 1023).heardAt + rwlField lost .fabric 4 9 0 * rwlField lost .fabric 4 13 10 * 10 ^ 6 ≤ lost.now := by
  and_intros <;> first | decide +kernel | rfl

/-! ## Lanes -/

/-- The wired unit with lane 0, of port 0, as given. -/
def lane0 (x : LaneSt) : State := { wired with lanes := [(0, x)], now := 10 ^ 12 }

/-- Lane 16 is a Skov link of one lane. -/
def linked (x : LaneSt) : State :=
  { setRwl 0 (.skov 16) 0 1 (setRwl 0 .xbar 34 0xF up) with lanes := [(16, x)], now := 10 ^ 12 }

theorem wit_LaneTraining : let g0 : LaneGroup := { lowest := 0, count := 1, link := false }
    let g1 : LaneGroup := { lowest := 16, count := 1, link := true }
    let foreign := setRwl 0 (.lane 16) 0 4 (linked { state := .frameLock })
    (laneOf (lane0 { state := .waitSignal }) 0).state = .waitSignal ∧ coreRuns (lane0 {}) 0 = true
    ∧ laneCfg (setRwl 0 (.lane 0) 0 0 wired) 0 3 3 = 0 ∧ laneCfg (setRwl 0 (.lane 0) 0 8 wired) 0 3 3 ≠ 0
    ∧ coreRuns { wired with engines := [] } 0 = false
    ∧ (laneOf foreign 16).state = .frameLock ∧ coreRuns foreign 16 = true ∧ laneCfg foreign 16 2 2 = 1
    ∧ ((laneGroup foreign 16).map (fun g => g.link)).getD false = true ∧ 320 < (BitVec.toInt 321#16).natAbs
    ∧ 320 < (BitVec.toInt (-321#16)).natAbs ∧ ¬ 320 < (BitVec.toInt 320#16).natAbs
    ∧ (laneOf (lane0 { state := .frameLock }) 0).state = .frameLock
    ∧ ((laneGroup (lane0 { state := .frameLock }) 0).map (fun g => g.link)).getD false = false
    ∧ (laneOf (lane0 { state := .waitPartner }) 0).state = .waitPartner
    ∧ (laneOf (lane0 { state := .exchange, eye := 65535 }) 0).state = .exchange
    ∧ rwField (lane0 {}) (.lane 0) 4 15 0 ≤ 65535
    ∧ training (laneOf (lane0 { state := .waitSignal }) 0) = true
    ∧ (laneOf (lane0 { state := .waitSignal }) 0).attemptAt + 4 * (laneOf (lane0 {}) 0).timeout ≤ (lane0 {}).now
    ∧ (laneOf (lane0 { state := .backoff }) 0).backoffUntil ≤ (lane0 {}).now
    ∧ groupAt (lane0 { state := .data }) 0 = some g0 ∧ allIn (lane0 { state := .data }) g0 .data = true
    ∧ groupAt (linked { state := .data }) 16 = some g1 ∧ allIn (linked { state := .data }) g1 .data = true
    ∧ lastDataAt (lane0 { state := .data }) g0 + 10 * 10 ^ 9 ≤ (lane0 {}).now
    ∧ arrivalsWait (lane0 { state := .data }) = false ∧ arrivalsWait (lane0 { state := .waitSignal }) = false := by
  and_intros <;> first | decide +kernel | rfl
theorem wit_LaneTraining_time : let a := fun st => lane0 { state := st, timerAt := 10 ^ 12 }
    let late := fun st => lane0 { state := st }
    coreRuns (a .frameLock) 0 = true ∧ (a .frameLock).now < (laneOf (a .frameLock) 0).timerAt + (laneOf (a .frameLock) 0).timeout + 625
    ∧ (a .exchange).now < (laneOf (a .exchange) 0).timerAt + (laneOf (a .exchange) 0).timeout + 625
    ∧ (laneOf (late .waitPartner) 0).timerAt + (laneOf (late .waitPartner) 0).timeout + 625 ≤ (late .waitPartner).now
    ∧ (laneOf (late .frameLock) 0).timerAt + (laneOf (late .frameLock) 0).timeout ≤ (late .frameLock).now
    ∧ arrivalsWait (late .frameLock) = false ∧ training (laneOf (late .frameLock) 0) = true := by
  and_intros <;> first | decide +kernel | rfl
theorem wit_LaneService_eye : let s := lane0 { state := .up, fecLock := true, eye := 5 }
    accepts s .triad (.lane 0) 4 0 6 ∧ accepts up .triad (.lane 511) 4 0 6
    ∧ (laneOf s 0).taps = [] ∧ rwField s (.lane 0) 0 25 25 = 0
    ∧ rwField (setRwl 0 (.lane 0) 0 (2 ^ 25) (setRw (.lane 0) 0 (2 ^ 25) s)) (.lane 0) 0 25 25 ≠ 0
    ∧ (laneOf (lane0 { state := .waitPartner }) 0).state = .waitPartner := by
  simp only [accepts]; and_intros <;> first | decide +kernel | rfl
theorem wit_LaneService : let g0 : LaneGroup := { lowest := 0, count := 1, link := false }
    let g1 : LaneGroup := { lowest := 16, count := 1, link := true }
    let s := lane0 { state := .up, fecLock := true }
    groupAt s 0 = some g0 ∧ allIn s g0 .up = true ∧ groupAt (linked { state := .up }) 16 = some g1
    ∧ allIn (linked { state := .up }) g1 .up = true
    ∧ (laneOf (lane0 { state := .exchange }) 0).state = .exchange ∧ (laneOf s 0).state = .up
    ∧ (laneOf (lane0 { state := .test }) 0).state = .test ∧ up.tilePll.testBit 7 = true
    ∧ ({ up with tilePll := 127 } : State).tilePll.testBit 7 = false ∧ domainOn up 29 = true
    ∧ laneMayRun { { wired with tilePll := 254 } with tilePll := 254 + 2 ^ 0 } 0 = true
    ∧ (laneOf { wired with tilePll := 254 } 0).state = .disabled
    ∧ accepts up .triad (.lane 511) 8 0 1 ∧ accepts up .triad (.lane 511) 8 0 0
    ∧ (laneOf up 511).state ≠ .test ∧ (laneOf up 511).state ≠ .up
    ∧ accepts (lane0 { state := .test }) .triad (.lane 0) 8 0 0
    ∧ rwField s (.lane 0) 0 25 25 = 0 ∧ coreRuns s 0 = true
    ∧ decide (0 < rwField (setRw (.lane 0) 4 1 s) (.lane 0) 4 15 0) = true ∧ (laneOf s 0).eyeLow = false
    ∧ (laneOf s 0).lowAt = 0 ∧ decide (1 < rwField (setRw (.lane 0) 4 1 s) (.lane 0) 4 15 0) = false := by
  simp only [accepts]; and_intros <;> first | decide +kernel | rfl
theorem wit_LaneRest : let g1 : LaneGroup := { lowest := 16, count := 1, link := true }
    let s := setRwl 0 (.lane 16) 0 (2 ^ 7) (linked { state := .up, wakeTx := 1, wakeRx := 1 })
    let r := linked { state := .up, wakeRx := 1, txRest := true, rxRest := true }
    let p := setRwl 0 .xbar 32 0xC (lane0 { state := .up })
    groupAt s 16 = some g1 ∧ allIn s g1 .up = true ∧ (laneOf s 16).txRest = false ∧ laneCfg s 16 7 7 = 1
    ∧ (laneOf s 16).wakeTx ≠ 0 ∧ restFormat s 16 = true ∧ restIdle s g1 = true ∧ (laneOf s 16).wakeRx ≠ 0
    ∧ groupAt r 16 = some g1 ∧ allIn r g1 .up = true ∧ (laneOf r 16).txRest = true
    ∧ (laneOf r 16).refreshSent + 100 * 10 ^ 6 ≤ r.now ∧ laneCfg r 16 7 7 = 0 ∧ (laneOf r 16).rxRest = true
    ∧ (laneOf r 16).refreshSeen + 250 * 10 ^ 6 ≤ r.now ∧ gatesAllowRest s g1 = true
    ∧ arrivalsWait s = false ∧ arrivalsWait r = false
    ∧ (groupAt p 0).map (fun g => g.link) = some false ∧ restFormat p 0 = true := by
  and_intros <;> first | decide +kernel | rfl

/-! ## Faults, repairs and the Triad -/


theorem wit_RepairsAndParity : let h := fun t i x => hnd t i x
    let a := regAddr .time 1
    repairable 1 0 (hIndex (h 1 0 2097151)) = true ∧ repairable 6 0 (hIndex (h 6 0 786431)) = true
    ∧ repairable 9 0 (hIndex (h 9 0 262143)) = true ∧ repairable 0x0D 0 (hIndex (h 0x0D 0 1048575)) = true
    ∧ repairable 0x43 0 (hIndex (h 0x43 0 1048575)) = true ∧ repairable 0x44 31 (hIndex (h 0x44 31 65535)) = true
    ∧ repairable 0 0 0 = false ∧ repairable 2 0 0 = true ∧ hType (h 0x44 31 65535) = 0x44 ∧ hInst (h 0x44 31 65535) = 31
    ∧ (7, 5) ∉ up.vat.rebuilding ∧ (7, 5) ∈ ({ up with vat := { rebuilding := [(7, 5)] } } : State).vat.rebuilding
    ∧ inStorage up 0 0 = true ∧ handle 0 0 ∉ up.vat.badRecords
    ∧ regAt a = some (.time, 1) ∧ a % 16 = 0 ∧ domainOn up (addrDomain a) = true ∧ flipsOf up .time 1 = 0
    ∧ 1 &&& ((specOf .time 1).rw ||| (specOf .time 1).rwl) ≠ 0
    ∧ 0 &&& ((specOf .time 1).rw ||| (specOf .time 1).rwl) = 0
    ∧ regAt (regAddr (.mac 0) 0) = some (.mac 0, 0) ∧ timeParity up = false
    ∧ domainOn up (addrDomain (regAddr (.mac 0) 0)) = true := by
  and_intros <;> first | decide +kernel | rfl
theorem wit_ScraperAndPipes : let s := { up with scraper := { pending := [(ownerName 1 31, false)] } }
    let w := { up with scraper := { current := some (ownerName 1 31), walked := true } }
    let f := { up with pipes := [(31, { faulted := true })] }
    let r := { up with pipes := [(31, { faulted := true, resetDone := true })] }
    s.scraper.current = none ∧ s.scraper.pending = [(ownerName 1 31, false)] ∧ ownerKind (ownerName 1 31) ≠ 3
    ∧ ownerKind (ownerName 3 0) = 3 ∧ w.scraper.current = some (ownerName 1 31) ∧ w.scraper.walked = true
    ∧ domainOn up 7 = true ∧ (pipeOf up 31).faulted = false ∧ domainOn State.reset 7 = false
    ∧ pipeEntry 31 (tblKey 0x0B 31 65535) = true ∧ pipeEntry 31 (tblKey 9 0 262143) = true
    ∧ pipeEntry 31 (tblKey 0x0F 511 5) = true ∧ pipeEntry 31 (tblKey 0x0D 0 31) = false
    ∧ (pipeOf f 31).faulted = true ∧ (pipeOf f 31).resetDone = false ∧ (pipeOf r 31).faulted = true
    ∧ (pipeOf r 31).resetDone = true ∧ (pipeOf r 31).heldDown = false
    ∧ (pipeOf { up with pipes := [(31, { faulted := true, heldDown := true })] } 31).heldDown = true := by
  and_intros <;> first | decide +kernel | rfl
theorem wit_TriadAndCave : let s := { up with triad := { mode := .resync, inVote := 3, resyncing := some (2, 0), sramPass := true } }
    let h := { up with triad := { mode := .halted }, now := 10 ^ 18 }
    let c := { up with cave := { chan := [(7, { ready := true })] } }
    s.triad.mode = .resync ∧ s.triad.resyncing = some (2, 0) ∧ s.triad.sramPass = true ∧ s.triad.mode ≠ .halted
    ∧ s.ledger.fifo.length < 64 ∧ h.triad.mode = .halted ∧ h.triad.headlessStopped = false
    ∧ h.triad.haltedAt + rwField h .triad 1 16 0 * 10 ^ 12 ≤ h.now
    ∧ (chan c 7).ready = true ∧ domainOn up 21 = true ∧ (chan up 7).ready = false := by
  and_intros <;> first | decide +kernel | rfl
theorem wit_LedgerRing : let s := { up with ledger := { fifo := [{ code := 1 }] }, now := 2500 }
    let l := { up with ledger := { fifo := List.replicate 64 {}, overrun := 3 }, now := 2500 }
    s.ledger.fifo = { code := 1 } :: [] ∧ ({ code := 1 } : Event).clock + 1 ≤ s.now / 2500
    ∧ s.ledger.written ≤ s.now / 2500 ∧ s.ledger.fifo.length ≤ 64 ∧ s.ledger.overrun = 0
    ∧ l.ledger.fifo = {} :: List.replicate 63 {} ∧ l.ledger.fifo.length ≤ 64 ∧ l.ledger.overrun ≠ 0 := by
  and_intros <;> first | decide +kernel | rfl

/-! ## The I3C target -/

/-- The target holds address 0x30. -/
def addressed : State := { up with i3c := { up.i3c with addr := some 0x30 }, now := 10 ^ 12 }

theorem goodMessage_cons {bytes : List Byte} (h : goodMessage bytes) : ∃ b bs, bytes = b :: bs ∧ (b = 1 ∨ b = 2) := by
  obtain ⟨a, ⟨ws, _, _, rfl⟩ | ⟨n, _, _, rfl⟩⟩ := h <;> exact ⟨_, _, rfl, by simp⟩
theorem wit_I3cMessages_bad : ¬ goodMessage [0] := by
  intro h
  obtain ⟨b, bs, hb, h1⟩ := goodMessage_cons h
  cases hb
  simp at h1
theorem wit_I3cMessages : let s := addressed
    let b := { s with i3c := { s.i3c with bad := true } }
    let r := { s with i3c := { s.i3c with setup := some { addr := 0, n := 16, endedAt := 0 } } }
    let e := { s with i3c := { s.i3c with setup := some { addr := 0, n := 16, endedAt := 10 ^ 12 } } }
    let m := { r with i3c := { r.i3c with mrl := 64 } }
    i3cTakes s ∧ 5 + 4 * 16 ≤ s.i3c.mwl ∧ 6 ≤ s.i3c.mwl ∧ s.i3c.mwl < (List.replicate (s.i3c.mwl + 1) (0 : Byte)).length
    ∧ i3cTakes b ∧ b.i3c.bad = true ∧ s.i3c.bad = false ∧ s.i3c.setup = none
    ∧ i3cTakes r ∧ r.i3c.bad = false ∧ r.i3c.setup = some { addr := 0, n := 16, endedAt := 0 } ∧ 1 + 4 * 16 ≤ r.i3c.mrl
    ∧ 0 + 2 * 10 ^ 6 ≤ r.now ∧ i3cTakes e ∧ e.now < 10 ^ 12 + 2 * 10 ^ 6 ∧ i3cTakes m ∧ m.i3c.mrl < 1 + 4 * 16
    ∧ up.i3c.addr = none := by
  simp only [i3cTakes]; and_intros <;> first | decide +kernel | rfl
theorem wit_I3cBus : let o := { setRw .i3c 14 0 addressed with i3c := { addressed.i3c with ibiEnabled := false, hjEnabled := false } }
    up.boot.vaon = true ∧ up.i3c.inHdr = false ∧ up.i3c.addr = none ∧ addressed.i3c.addr ≠ none ∧ i3cTakes addressed
    ∧ up.boot.pgood = true ∧ up.i3c.hjEnabled = true ∧ up.i3c.hotJoinAt = 0 ∧ o.i3c.hjEnabled = false
    ∧ o.i3c.ibiEnabled = false ∧ o.boot.vaon = true ∧ addressed.i3c.addr.isSome = true ∧ addressed.i3c.ibiEnabled = true
    ∧ (∃ src < 4, ∃ s : State, i3cTakes s ∧ s.i3c.ibiEnabled = true ∧ ibiDue s src = true ∧ ∀ k < src, ibiDue s k = false) := by
  refine ⟨rfl, rfl, rfl, by decide, ?_, rfl, rfl, rfl, rfl, rfl, rfl, rfl, rfl, ?_⟩
  · simp only [i3cTakes]; and_intros <;> rfl
  · refine ⟨2, by decide, setRw .i3c 14 0x104 addressed, ?_, rfl, ?_⟩
    · simp only [i3cTakes]; and_intros <;> rfl
    · decide +kernel

/-! ## Reset, power and boot -/

theorem wit_ResetAndPower : let w := { up with power := { on := 2 ^ 30 - 1 - 2 ^ 29 } }
    up.boot.vaon = true ∧ up.boot.inReset = false ∧ State.reset.boot.vaon = true ∧ State.reset.boot.inReset = true
    ∧ ({ up with boot := { vaon := false } } : State).boot.vaon = false ∧ w.boot.vaon = true ∧ w.boot.inReset = false := by
  and_intros <;> rfl
theorem wit_ResetAndPower_on : ∃ d : Fin 30, ∃ s : State, s.boot.vaon = true ∧ s.boot.inReset = false
    ∧ mayPower s d = true := by
  refine ⟨29, { up with power := { on := 2 ^ 30 - 1 - 2 ^ 29, wanted := 2 ^ 30 - 1 } }, rfl, rfl, by decide +kernel⟩
theorem wit_BootSequence : let r := State.reset
    let a := { up with boot := { up.boot with phase := .applying, applied := true }, epoch := { shadowOpen := true } }
    r.boot.vaon = true ∧ r.boot.inReset = true ∧ rwBits r .i3c 2 = 0
    ∧ ({ r with flash := { r.flash with present := false } } : State).flash.present = false
    ∧ a.boot.phase = .applying ∧ a.boot.applied = true ∧ a.epoch.shadowOpen = true ∧ a.epoch.commit = .none
    ∧ up.boot.committed = true ∧ up.boot.halted = false ∧ up.upd.phase = .idle ∧ up.upd.op = none
    ∧ 256 ≤ (List.replicate 256 (0 : Byte)).length ∧ up.triad.mode ≠ .halted := by
  and_intros <;> first | decide +kernel | rfl
theorem wit_BootSequence_ready : ∃ s : State, s.boot.phase = .applying ∧ s.boot.applied = true ∧ bootReady s = true
    ∧ s.epoch.shadowOpen = true ∧ s.epoch.commit = .none :=
  ⟨{ up with boot := { up.boot with phase := .applying, applied := true }, epoch := { shadowOpen := true }
             power := { on := 15, wanted := 15 } }, rfl, rfl, by decide +kernel, rfl, rfl⟩
theorem wit_BootCommandsAndMoulds : let w := fun (v : Nat) (b : BootSt) => setRw .i3c 2 v { up with boot := b }
    let rom : BootSt := { inReset := false, pgood := true, phase := .loading }
    let held : BootSt := { rom with phase := .held, heldAt := some .loading }
    bootCommandWaits (w 1 rom) 1 ∧ beforeApply (w 1 rom) = true ∧ bootCommandWaits (w 1 up.boot) 1
    ∧ beforeApply (w 1 up.boot) = false ∧ bootCommandWaits (w 2 held) 2 ∧ (w 2 held).boot.heldAt = some .loading
    ∧ bootCommandWaits (w 2 rom) 2 ∧ (w 2 rom).boot.heldAt = none
    ∧ bootCommandWaits (w (3 + 15 * 256) rom) 3 ∧ rwBits (w (3 + 15 * 256) rom) .i3c 2 / 256 = 15
    ∧ bootCommandWaits (w (3 + 16 * 256) rom) 3 ∧ 15 < rwBits (w (3 + 16 * 256) rom) .i3c 2 / 256
    ∧ bootCommandWaits (w (4 + 2 * 256) rom) 4 ∧ (w (4 + 2 * 256) rom).boot.trying = none
    ∧ rwBits (w (4 + 2 * 256) rom) .i3c 2 / 256 = 2 ∧ bootCommandWaits (w (4 + 3 * 256) rom) 4
    ∧ bootCommandWaits (w 5 rom) 5 ∧ (w 5 rom).boot.committed = false ∧ bootCommandWaits (w 6 up.boot) 6
    ∧ bootCommandWaits (w 5 up.boot) 5 ∧ (w 5 up.boot).boot.committed = true ∧ (w 5 up.boot).upd.phase = .idle := by
  simp only [bootCommandWaits]; and_intros <;> first | decide +kernel | rfl
theorem wit_BootCommandsAndMoulds_mould : let o := { up with epoch := { shadowOpen := true } }
    let g := setRw .starter 1 15 up
    let d := { up with fabric := up.fabric }
    accepts o .triad .starter 1 4 0 ∧ flipsOf o .starter 1 = 0 ∧ o.epoch.shadowOpen = true
    ∧ accepts g .triad .starter 1 4 0 ∧ flipsOf g .starter 1 = 0 ∧ rwField g .starter 1 3 0 ≠ 0
    ∧ mouldRecs (setInUse g) (rwField g .starter 1 3 0) = [] ∧ g.boot.phase = .running ∧ g.epoch.shadowOpen = false
    ∧ g.epoch.stagePending = false ∧ g.epoch.commit = .none
    ∧ accepts d .triad .starter 1 4 0 ∧ rwField d .starter 1 3 0 = 0 ∧ setInUse d = none ∧ rwField d .starter 1 4 4 = 0
    ∧ stageReady d = true ∧ stageReady { up with sched := { gates := [(0, { pending := some {} })] } } = false := by
  simp only [accepts]; and_intros <;> first | decide +kernel | rfl

/-! ## Monitors -/

theorem wit_Monitors : up.boot.vaon = true ∧ (744#12).toNat + 15 < 760 ∧ (765#12).toNat ≤ 765 ∧ 765 < (766#12).toNat
    ∧ up.sensor.railOut.testBit 0 = false ∧ mget 0 up.sensor.railAt 0 = 0
    ∧ (BitVec.toInt 459#11) < 460 ∧ 460 ≤ (BitVec.toInt 460#11) ∧ (BitVec.toInt (-1#11)) < 460
    ∧ (655#10).toNat = ({ up with sensor := { up.sensor with targetA := 650 } } : State).sensor.targetA + 5
    ∧ (745#10).toNat + 5 = ({ up with sensor := { up.sensor with targetB := 750 } } : State).sensor.targetB
    ∧ mget 0 up.sensor.targetAt 0 = 0 ∧ 0 < (1 : Nat) - 1 + 10 ^ 10
    ∧ mget 0 ({ up with sensor := { up.sensor with targetAt := [(1, 1)] } } : State).sensor.targetAt 1 = 1 := by
  and_intros <;> first | decide +kernel | rfl

/-! ## Firmware in the memory -/

/-- CRC-32C that the kernel evaluates byte by byte: the test of `r` makes it a number before the next byte. -/
def crcForced : List Byte → Nat → Nat
  | [], r => r ^^^ 0xFFFFFFFF
  | b :: bs, r => if r = 2 ^ 32 then 0 else crcForced bs (crcByte r b)

theorem crc32c_forced (bs : List Byte) : crc32c 0 bs = crcForced bs 0xFFFFFFFF := by
  have step : ∀ (bs : List Byte) (r : Nat), r < 2 ^ 32 → crcForced bs r = (bs.foldl crcByte r) ^^^ 0xFFFFFFFF := by
    intro bs; induction bs with
    | nil => exact fun r _ => rfl
    | cons b bs ih =>
      intro r h
      rw [crcForced, if_neg (by omega), ih _ (Laws.crcByte_lt b h), List.foldl_cons]
  exact (step bs _ (by decide)).symm

/-- Memory cells that hold byte strings at rising offsets; an unlisted byte reads 0xFF. -/
def flashOf (parts : List (Nat × List Byte)) : List Host.Cell :=
  parts.flatMap (fun p => p.2.zipIdx.filterMap (fun x => if x.1 = 0xFF then none else some (p.1 + x.2, ~~~ x.1)))

/-- An image of four bytes of text, with its CRC. -/
def tinyImage : List Byte :=
  leBytes 4 0x434E524B ++ leBytes 2 1 ++ leBytes 10 0 ++ leBytes 4 4 ++ leBytes 40 0 ++ leBytes 4 1171535286
    ++ [0, 0, 0, 0]

/-- A directory of settings format 5 whose three images are the tiny one, at 4,096. -/
def dirBytes : List Byte :=
  leBytes 4 0x544C534B ++ leBytes 2 1 ++ leBytes 2 5 ++ leBytes 12 0 ++ List.replicate 44 0xFF
    ++ (List.range 3).flatMap (fun k => leBytes 4 k ++ leBytes 4 4096 ++ leBytes 4 68 ++ leBytes 4 1171535286)

/-- What that directory says. -/
def tinyDir : SlotDir :=
  { settings := 5, images := (List.range 3).map (fun k => (k, 4096, 68, 1171535286)) }

/-- A settings set of format 5 without records and moulds. -/
def setBytes : List Byte :=
  leBytes 4 0x454B5950 ++ leBytes 2 5 ++ leBytes 10 0 ++ List.replicate 60 0xFF
    ++ (List.range 15).flatMap (fun _ => [0, 0, 0xFF, 0xFF, 0xFF, 0xFF, 0xFF, 0xFF]) ++ List.replicate 56 0xFF
    ++ leBytes 4 4259074992

/-- The Starter extension, CURRENT and a settings set. -/
def firmCells : List Host.Cell :=
  flashOf [(0, tinyImage), (0x100000, dirBytes), (0x100000 + 3996, leBytes 4 57316867), (0x101000, tinyImage),
    (0x3100000, setBytes)]

/-- A unit at its boot anchor with firmware in its memory. -/
def firm : State := { State.reset with flash := { cells := firmCells } }

theorem length_memRead (m : Memory) (a n : Nat) : (memRead m a n).length = n := by
  induction n generalizing a with
  | zero => rfl
  | succ n ih => simp [memRead, ih]

theorem memRead_append (m : Memory) (a p q : Nat) : memRead m a (p + q) = memRead m a p ++ memRead m (a + p) q := by
  induction p generalizing a with
  | zero => simp [memRead]
  | succ p ih => rw [show p + 1 + q = (p + q) + 1 by omega]; simp [memRead, ih, Nat.add_assoc, Nat.add_comm 1 p]

theorem memRead_blank (m : Memory) (a n : Nat) (h : m.all (fun c => decide (c.1 < a) || decide (a + n ≤ c.1)) = true) :
    memRead m a n = List.replicate n 0 := by
  have hget : ∀ (m : Memory) (k : Nat), (∀ c ∈ m, c.1 ≠ k) → memByte m k = 0 := by
    intro m k; induction m with
    | nil => exact fun _ => rfl
    | cons c m ih =>
      intro hc
      have hne := hc c (List.mem_cons_self ..)
      simp only [memByte, mget, if_neg hne]
      exact ih (fun d hd => hc d (List.mem_cons_of_mem _ hd))
  have hb : ∀ k, a ≤ k → k < a + n → memByte m k = 0 := by
    intro k h1 h2
    refine hget m k (fun c hc => ?_)
    have := List.all_eq_true.mp h c hc
    simp only [Bool.or_eq_true, decide_eq_true_eq] at this
    omega
  clear h
  induction n generalizing a with
  | zero => rfl
  | succ n ih =>
    rw [memRead, hb a (by omega) (by omega), ih (a + 1) (fun k h1 h2 => hb k (by omega) (by omega))]
    rfl

theorem flashRead_append (s : State) (a p q : Nat) : flashRead s a (p + q) = flashRead s a p ++ flashRead s (a + p) q := by
  simp only [flashRead, memRead_append, List.map_append]

theorem flashRead_blank (s : State) (a n : Nat)
    (h : s.flash.cells.all (fun c => decide (c.1 < a) || decide (a + n ≤ c.1)) = true) :
    flashRead s a n = List.replicate n 0xFF := by
  rw [flashRead, memRead_blank _ _ _ h, List.map_replicate]; rfl

/-- A slot's first 4,096 bytes with that directory. -/
def headBytes : List Byte :=
  dirBytes ++ (List.replicate 3884 0xFF ++ (leBytes 4 57316867 ++ List.replicate 96 0xFF))

theorem wit_dir : slotDirOf headBytes = some tinyDir := by
  simp only [slotDirOf, crc32c_forced]; decide +kernel

/-- A memory that holds the directory at `b` and its CRC, and else nothing to `b + 4096`, holds the slot's head. -/
theorem head_of (s : State) (b : Nat) (h1 : flashRead s b 112 = dirBytes)
    (h2 : s.flash.cells.all (fun c => decide (c.1 < b + 112) || decide (b + 112 + 3884 ≤ c.1)) = true)
    (h3 : flashRead s (b + 112 + 3884) 4 = leBytes 4 57316867)
    (h4 : s.flash.cells.all (fun c => decide (c.1 < b + 112 + 3884 + 4) || decide (b + 112 + 3884 + 4 + 96 ≤ c.1)) = true) :
    flashRead s b 4096 = headBytes := by
  rw [show 4096 = 112 + (3884 + (4 + 96)) by rfl, flashRead_append, flashRead_append, flashRead_append, h1, h3,
    flashRead_blank s _ 3884 h2, flashRead_blank s _ 96 h4, headBytes]

theorem wit_head : flashRead firm 0x100000 4096 = headBytes :=
  head_of firm 0x100000 (by decide +kernel) (by decide +kernel) (by decide +kernel) (by decide +kernel)
theorem wit_slotDir : slotDir firm 0 = some tinyDir := by
  rw [slotDir, slotHead, if_neg (by decide), show slotBase 0 = 0x100000 by rfl, wit_head, wit_dir]
theorem wit_half : flashRead firm 0x3100000 halfSize = setBytes ++ flashRead firm (0x3100000 + 256) (halfSize - 256) := by
  rw [show halfSize = 256 + (halfSize - 256) by rfl, flashRead_append,
    show flashRead firm 0x3100000 256 = setBytes by decide +kernel]; rfl
theorem wit_half1 : flashRead firm 0x3500000 halfSize = List.replicate halfSize 0xFF :=
  flashRead_blank firm _ _ (by decide +kernel)
theorem wit_halfSet : halfSet firm 0 = some { format := 5, bootDefault := 255 } := by
  simp only [halfSet, halfBase, Nat.zero_mul, Nat.add_zero, wit_half, parseSet, setCrc, crc32c_forced]; decide +kernel
theorem wit_set : halfOfFormat firm 5 = some (0, { format := 5, bootDefault := 255 }) := by
  have h1 : halfSet firm 1 = none := by
    simp only [halfSet, halfBase, Nat.one_mul, Nat.reduceAdd, wit_half1]; decide +kernel
  simp only [halfOfFormat, wit_halfSet, h1]; rfl
theorem wit_image : flashRead firm 0x101000 68 = tinyImage := by decide +kernel
theorem wit_slotImage (k : Nat) (h : k < 3) : slotImage firm 0 tinyDir k = tinyImage := by
  rw [← wit_image]
  match k, h with
  | 0, _ => rfl
  | 1, _ => rfl
  | 2, _ => rfl
theorem wit_consistent : slotConsistent firm 0 tinyDir = true := by
  simp only [slotConsistent, List.all_cons, List.all_nil, slotImageOk, wit_slotImage 0 (by decide),
    wit_slotImage 1 (by decide), wit_slotImage 2 (by decide)]
  decide +kernel
theorem wit_extension : extensionOk firm = true := by
  have h : flashRead firm 0 0x100000 = tinyImage ++ flashRead firm 68 (0x100000 - 68) := by
    rw [show (0x100000 : Nat) = 68 + (0x100000 - 68) by rfl, flashRead_append,
      show flashRead firm 0 68 = tinyImage by decide +kernel, Nat.zero_add, Nat.add_sub_cancel_left]
  have hl : (flashRead firm 68 (0x100000 - 68)).length = 0x100000 - 68 := by
    simp only [flashRead, List.length_map, length_memRead]
  simp only [extensionOk, imgCrcOk, h, List.length_append, hl]; decide +kernel

/-- The unit at its boot anchor: the extension runs and slot 0 is tried. -/
theorem wit_BootSequence_anchor : firm.boot.vaon = true ∧ firm.boot.inReset = true ∧ rwBits firm .i3c 2 = 0
    ∧ firm.flash.present = true ∧ 64 ≤ firm.flash.sizeMib ∧ extensionOk firm = true ∧ firm.boot.selSlot = none
    ∧ slotDir firm 0 = some tinyDir ∧ halfOfFormat firm tinyDir.settings = some (0, { format := 5, bootDefault := 255 }) :=
  ⟨rfl, rfl, by decide +kernel, rfl, by decide, wit_extension, rfl, wit_slotDir, wit_set⟩
/-- Whether a signature passes is a free value: it is taken to pass here. -/
theorem wit_BootSequence_load (hs : slotSigned firm 0 tinyDir = true) :
    let s := { firm with boot := { firm.boot with trying := some 0, phase := .loading }, power := { on := 15, wanted := 15 } }
    s.boot.trying = some 0 ∧ s.boot.phase = .loading ∧ domainsReady s = true ∧ slotDir s 0 = some tinyDir
    ∧ slotConsistent s 0 tinyDir = true ∧ slotSigned s 0 tinyDir = true ∧ s.boot.format = 0
    ∧ s.epoch.shadowOpen = false ∧ s.epoch.stagePending = false ∧ s.epoch.commit = .none :=
  ⟨rfl, rfl, by decide +kernel, wit_slotDir, wit_consistent, hs, rfl, rfl, rfl, rfl⟩
/-- The directory alone: its images are erased. -/
def torn : State :=
  { State.reset with
    flash := { cells := flashOf [(0x100000, dirBytes), (0x100000 + 3996, leBytes 4 57316867)] }
    boot := { trying := some 0, phase := .loading }
    power := { on := 15, wanted := 15 } }
theorem wit_BootSequence_torn : torn.boot.trying = some 0 ∧ torn.boot.phase = .loading ∧ domainsReady torn = true
    ∧ slotDir torn 0 = some tinyDir ∧ slotConsistent torn 0 tinyDir = false ∧ torn.boot.toTry = [] := by
  refine ⟨rfl, rfl, by decide +kernel, ?_, by decide +kernel, rfl⟩
  rw [slotDir, slotHead, if_neg (by decide), show slotBase 0 = 0x100000 by rfl,
    head_of _ 0x100000 (by decide +kernel) (by decide +kernel) (by decide +kernel) (by decide +kernel), wit_dir]

theorem wit_BootCommandsAndMoulds_restart :
    let s := { setRw .i3c 2 5 up with flash := firm.flash }
    bootCommandWaits s 5 ∧ s.boot.committed = true ∧ s.upd.phase = .idle ∧ slotDir s s.boot.slot = some tinyDir := by
  refine ⟨?_, rfl, rfl, wit_slotDir⟩
  simp only [bootCommandWaits]; and_intros <;> first | decide +kernel | rfl

/-! ## Firmware update -/

theorem regionLimit_ones : regionLimitOf (BitVec.allOnes 64) = 2 ^ 64 - 1 := by
  have h : ∀ p : Nat, ((BitVec.allOnes 64).getLsbD p || decide (64 ≤ p)) = true := by
    intro p; simp only [BitVec.getLsbD_allOnes, Bool.or_eq_true, decide_eq_true_eq]; omega
  simp only [regionLimitOf, h, if_true]; decide
theorem regionRight_ones (tier : Nat) (r : Right) : regionRightOf (BitVec.allOnes 64) tier r = true := by
  simp only [regionRightOf, BitVec.getLsbD_allOnes, decide_eq_true_eq]; omega

theorem grants_all (x : Engine) (hb : x.regionBase = []) (hl : x.regionLimit = [(0, BitVec.allOnes 64)]) (tier : Nat)
    (r : Right) (a n : Nat) (h : a + n ≤ 2 ^ 64) : regionGrants x tier r a n = true := by
  rw [regionGrants, List.any_eq_true]
  refine ⟨0, by decide, ?_⟩
  simp only [hb, hl, mget, if_true, regionLimit_ones, regionRight_ones, Bool.and_true, Bool.and_eq_true, decide_eq_true_eq]
  exact ⟨Nat.zero_le _, by omega⟩

/-- The unit with the Triad in T1, in a region that covers all and grants every right. -/
def calling (rs : SMap Word64) (u : State) : State :=
  setEngine 0 { run := .running, gpr := rs, status := 1, regionLimit := [(0, BitVec.allOnes 64)] } u

theorem wit_mayCall (rs : SMap Word64) (u : State) (ht : triadStalled u = false)
    (hv : u.triad.dissent = 0 ∧ u.triad.coreParity = [] := by exact ⟨rfl, rfl⟩) : mayCall (calling rs u) := by
  have he : engine (calling rs u) 0 = { run := .running, gpr := rs, status := 1, regionLimit := [(0, BitVec.allOnes 64)] } := by
    rw [calling, engine_setEngine_self]
  have hg : regionGrants (engine (calling rs u) 0) 1 .exec 0 4 = true :=
    grants_all _ (by rw [he]) (by rw [he]) 1 .exec 0 4 (by decide)
  have hs : tierOf (calling rs u) 0 = 1 := by rw [tierOf, he]; rfl
  have hst : triadStalled (calling rs u) = false := ht
  have hp : (engine (calling rs u) 0).pc.toNat = 0 := by rw [he]; rfl
  have hr : rightsFault (calling rs u) 0 .exec 0 4 = none := by
    rw [rightsFault, if_neg (by decide), if_pos ⟨rfl, by rw [hs]; decide⟩, hs, if_pos hg]
    rfl
  have hq : parityFault (calling rs u) 0 0 4 = none := by rw [parityFault, he]; rfl
  refine ⟨⟨?_, ?_, ?_⟩, hs, ?_⟩
  · simp only [canRun, Fin.val_zero, Fin.isValue, he, hst]; decide
  · show accessFault (calling rs u) 0 .exec (engine (calling rs u) 0).pc.toNat 4 = none
    rw [hp, accessFault, if_neg (by decide), show bufferAt (calling rs u) 0 0 = rangeOf 0 0 from rfl]
    simp only [hr, hq]
    rfl
  · exact fun _ => hv
  · show ¬ (engine (calling rs u) 0).status.toNat / 64 % 2 = 1
    rw [he]; exact (by decide : ¬ (1 : Word64).toNat / 64 % 2 = 1)

/-- The unit with its update in a phase. -/
def inPhase (p : UpdPhase) : State := { up with upd := { up.upd with phase := p } }

theorem wit_UpdateServices_calls (rs : SMap Word64) (p : UpdPhase) (h1 : p ≠ .handover) (h2 : p ≠ .handback) :
    mayCall (calling rs (inPhase p)) :=
  wit_mayCall rs _ (by cases p <;> first | rfl | exact absurd rfl h1 | exact absurd rfl h2)
theorem wit_UpdateServices_locked (n : Nat) : mayCall (calling [] { up with upd := { up.upd with lock := some n } }) :=
  wit_mayCall _ _ rfl
theorem wit_UpdateServices : let c := calling []
    let o := ownerOf (c up) eTriad
    let locked := fun (n : Nat) => c { up with upd := { up.upd with lock := some n } }
    (c up).upd.lock = none ∧ (locked o).upd.lock = some o ∧ ownerOf (locked o) eTriad = o
    ∧ (locked (o + 1)).upd.lock = some (o + 1) ∧ o + 1 ≠ ownerOf (locked (o + 1)) eTriad
    ∧ updReason (c up) .idle = 0 ∧ updReason (locked o) .idle ≠ 0
    ∧ (c up).upd.phase ≠ .prepared ∧ updReason (c (inPhase .prepared)) .prepared = 0
    ∧ imageReason (c (inPhase .prepared)) ≠ 0 ∧ updReason (c up) .prepared ≠ 0 ∧ (c (inPhase .prepared)).upd.op = none
    ∧ (c up).upd.phase = .idle := by
  and_intros <;> first | decide +kernel | rfl
theorem wit_UpdateServices_write : let h := scratchBuffer up 0
    let s := calling [(4, BitVec.ofNat 64 h), (5, 128)] { inPhase .prepared with
      vat := { held := [(h, { owner := 0, holds := 1 })] } }
    s.upd.phase = .prepared ∧ s.upd.op = none ∧ (kget s 0 4).toNat = h ∧ h < 2 ^ 32 ∧ hPool h = 1
    ∧ inStorage s 1 (hIdx h) = true ∧ (kget s 0 5).toNat = bufSize 1 ∧ (kget s 0 3).toNat = s.upd.written
    ∧ 0 + bufSize 1 ≤ 0x1000000 ∧ holdsBuffer s (ownerOf s eTriad) h = true
    ∧ holdsBuffer (calling [] (inPhase .prepared)) (ownerOf s eTriad) h = false
    ∧ ({ inPhase .prepared with upd := { (inPhase .prepared).upd with op := some .prepare } } : State).upd.op ≠ none
    ∧ (kget (calling [(3, 1)] (inPhase .prepared)) 0 3).toNat ≠ (calling [(3, 1)] (inPhase .prepared)).upd.written := by
  and_intros <;> first | decide +kernel | rfl
theorem wit_UpdateServices_writes (rs : SMap Word64) (v : Vat) : mayCall (calling rs { inPhase .prepared with vat := v }) :=
  wit_mayCall _ _ rfl

/-- An update whose image is written whole, its first four bytes held back. -/
def written : State :=
  { up with
    flash := firm.flash
    upd := { up.upd with phase := .prepared, magic := leBytes 4 0x544C534B, written := 4164 } }
theorem imageReason_zero (s : State) (d : SlotDir) (h : slotDirOf (slotHead s 0 true) = some d)
    (hc : slotConsistent s 0 d = true) (hw : slotExtent d ≤ s.upd.written)
    (hi : (imgHdr (slotImage s 0 d 0)).abi = (imgHdr (slotImage s 0 d 2)).abi) (ha : s.roll.admitted = false)
    (he : s.boot.fw.stateExport = d.stateImport ∧ s.boot.fw.stateExport = d.stateExport) (hf : s.upd.flashFailed = false) :
    imageReason s = 0 := by
  have h1 : ¬ s.upd.written < slotExtent d := by omega
  simp [imageReason, h, hc, h1, hi, versionForbidden, ha, he.1 ▸ he.2, he.1, hf]
theorem wit_written_head : slotHead (calling [] written) 0 true = headBytes := by
  have hm : leBytes 4 0x544C534B ++ headBytes.drop 4 = headBytes := by
    rw [headBytes, dirBytes]; simp only [List.append_assoc]; rw [List.drop_left' (by decide)]
  have hf : ∀ a n, flashRead (calling [] written) a n = flashRead firm a n := fun _ _ => rfl
  have hg : (calling [] written).upd.magic = leBytes 4 0x544C534B := rfl
  rw [slotHead, if_pos ⟨rfl, rfl⟩, hf, hg, show slotBase 0 = 0x100000 by rfl, wit_head]
  exact hm
theorem wit_UpdateServices_install : let s := calling [] written
    mayCall s ∧ updReason s .prepared = 0 ∧ imageReason s = 0 ∧ s.upd.magic.length = 4 :=
  ⟨wit_mayCall _ _ rfl, by decide +kernel,
    imageReason_zero _ tinyDir (wit_written_head ▸ wit_dir) wit_consistent (by decide +kernel)
      (by rw [show slotImage (calling [] written) 0 tinyDir 0 = tinyImage from wit_slotImage 0 (by decide),
            show slotImage (calling [] written) 0 tinyDir 2 = tinyImage from wit_slotImage 2 (by decide)])
      rfl ⟨rfl, rfl⟩ rfl, rfl⟩

theorem wit_MemoryOperations : let p := fun op => { up with upd := { up.upd with op := some op }, boot := { up.boot with slot := 1 } }
    up.upd.op = none ∧ (p .prepare).upd.op = some .prepare ∧ (p .prepare).boot.slot ≠ 0
    ∧ (p (.program 4 [1])).upd.op = some (.program 4 [1]) ∧ (p (.program 0 [1, 2, 3, 4])).upd.op = some (.program 0 [1, 2, 3, 4])
    ∧ (p (.settings 1 [])).upd.op = some (.settings 1 []) ∧ ([] : List Byte).length ≤ 0x400000
    ∧ ({ up with upd := { up.upd with op := some .prepare } } : State).upd.op = some .prepare ∧ up.boot.slot = 0
    ∧ up.upd.flashFailed = false := by
  and_intros <;> first | decide +kernel | rfl

/-- PREVIOUS holds the firmware. -/
def prev : State :=
  { State.reset with
    flash := { cells := flashOf [(0x1100000, dirBytes), (0x1100000 + 3996, leBytes 4 57316867), (0x1101000, tinyImage)] }
    upd := { State.reset.upd with phase := .handback } }
theorem wit_UpdateSequence_handback : prev.upd.phase = .handback ∧ slotDir prev 1 = some tinyDir
    ∧ slotImageOk prev 1 tinyDir 0 = true := by
  refine ⟨rfl, ?_, ?_⟩
  · rw [slotDir, slotHead, if_neg (by decide), show slotBase 1 = 0x1100000 by rfl,
      head_of prev 0x1100000 (by decide +kernel) (by decide +kernel) (by decide +kernel) (by decide +kernel), wit_dir]
  · simp only [slotImageOk, show slotImage prev 1 tinyDir 0 = tinyImage from
      (show flashRead prev 0x1101000 68 = tinyImage by decide +kernel)]
    decide +kernel
theorem wit_UpdateSequence : let sh := { inPhase .shadow with upd := { (inPhase .shadow).upd with imported := true } }
    let bad := { sh with triad := { sh.triad with retired := 1 } }
    let late := { bad with upd := { bad.upd with checkAt := 1 }, now := 10 ^ 13 }
    let core := fun (n : Nat) => { inPhase .tiles with upd := { (inPhase .tiles).upd with nextCore := n } }
    let again := { core 15 with upd := { (core 15).upd with coreFailed := true } }
    let time := { inPhase .time with upd := { (inPhase .time).upd with nextCore := 16 } }
    (inPhase .shadow).upd.phase = .shadow ∧ (inPhase .shadow).upd.imported = false ∧ (1 : Fin 6) ≠ 0
    ∧ sh.upd.imported = true ∧ conditionReason sh = 0 ∧ conditionReason bad ≠ 0 ∧ bad.upd.checkAt = 0
    ∧ late.upd.checkAt ≠ 0 ∧ late.upd.checkAt - 1 + 10 ^ 13 ≤ late.now
    ∧ ({ late with now := 10 ^ 13 - 1 } : State).now < late.upd.checkAt - 1 + 10 ^ 13
    ∧ (core 14).upd.phase = .tiles ∧ (core 14).upd.nextCore = 2 * (7 : Fin 8).val + (0 : Fin 2).val
    ∧ (core 15).upd.nextCore = 2 * (7 : Fin 8).val + (1 : Fin 2).val ∧ domainOn (core 15) 29 = true
    ∧ (core 15).upd.coreFailed = false ∧ again.upd.coreFailed = true ∧ again.upd.nextCore = 15
    ∧ time.upd.phase = .time ∧ time.upd.nextCore = 16 ∧ time.upd.coreFailed = false := by
  and_intros <;> first | decide +kernel | rfl
theorem wit_UpdateSequence_firm :
    let s := { inPhase .shadow with flash := firm.flash, boot := { up.boot with format := 5, half := 0 } }
    let h := { inPhase .handover with flash := firm.flash }
    s.upd.phase = .shadow ∧ s.upd.imported = false ∧ slotDir s 0 = some tinyDir ∧ tinyDir.settings = s.boot.format
    ∧ setInUse s = some { format := 5, bootDefault := 255 } ∧ h.upd.phase = .handover ∧ slotDir h 0 = some tinyDir :=
  ⟨rfl, rfl, wit_slotDir, rfl, (if_neg (by decide)).trans wit_halfSet, rfl, wit_slotDir⟩

/-- Tile core 0A and the time engine have halted, and the Triad restarts them. -/
theorem wit_UpdateSequence_restart : let s := { up with
      flash := firm.flash
      engines := [(0, { run := .running }), (1, { run := .halted }), (2, { run := .halted })] }
    slotDir s s.boot.slot = some tinyDir ∧ mayRestart s (eTile 0 0) 22 = true ∧ mayRestart s eTime 2 = true := by
  refine ⟨wit_slotDir, ?_, ?_⟩ <;> decide +kernel

/-! ## The queue, the memories and the words -/

theorem wit_StepRunsCommand : ({ up with pending := [.vaonDown] } : State).pending = .vaonDown :: [] ∧ up.pending = [] :=
  ⟨rfl, rfl⟩
theorem wit_MemoriesStayCanonical : let s := { State.reset with pending := [.vaonDown] }
    s.pending = .vaonDown :: [] ∧ writesBytes .vaonDown = true ∧ s.memoriesWf ∧ ∃ t, step s = .next t :=
  ⟨rfl, rfl, ⟨fun _ => rfl, rfl, rfl, rfl, rfl⟩, _, rfl⟩
theorem wit_EncodeThenDecode : encodeKrenus (.stB 0 1 2 0xFFFF .agree) = some (0, 0b010000_00001_00010_1111111111111111)
    ∧ voteAgrees (.stB 0 1 2 0xFFFF .agree) = true := by decide
theorem wit_DecodeThenEncode : decodeKrenus 18 0b101100_11111_11111_00000_00000_000000 = some (.auditRun 18 31 31) := by
  decide

end Sys2Proof.Tests
end

section
/-!
Engine registers (R68 to R70, R119): what a read and a write of one give, and the statement about CSR.RD and CSR.WR.
-/
namespace Sys2Proof.Machine
open Sys2Proof.Claims

/-! ## Sparse arrays: unlisting a key just written -/

theorem mdel_mdel_self {α : Type} (m : SMap α) (k : Nat) : mdel (mdel m k) k = mdel m k := by
  induction m with
  | nil => rfl
  | cons p m ih => by_cases h : p.1 = k <;> simp [mdel, h, ih]

theorem mdel_mput_self {α : Type} (m : SMap α) (k : Nat) (v : α) : mdel (mput m k v) k = mdel m k := by
  induction m with
  | nil => simp [mput, mdel]
  | cons p m ih =>
    by_cases h : p.1 = k
    · simp [mput, mdel, h]
    · by_cases hlt : k < p.1 <;> simp [mput, mdel, h, hlt, ih]

/-- Clearing a key forgets what was last written there. -/
@[simp] theorem mset_mset_default {α : Type} [DecidableEq α] (d : α) (m : SMap α) (k : Nat) (v : α) :
    mset d (mset d m k v) k d = mset d m k d := by
  by_cases h : v = d
  · simp [mset, h, mdel_mdel_self]
  · simp [mset, h, mdel_mput_self]

/-! ## Engine registers -/

/-- The engine register of a number that an engine stores: all of R68's list but KC_CYCLE. -/
def csrStored (x : Engine) (n : Nat) : Word64 :=
  if n = 0 then x.status
  else if n = 1 then x.cause
  else if n = 2 then x.epc
  else if n = 3 then x.tval
  else if n = 4 then x.tvec
  else if n = 5 then x.scratch
  else if n = 6 then x.owner
  else if n ≤ 0x17 then mget 0 x.regionBase (n - 8)
  else mget 0 x.regionLimit (n - 0x18)

/-- The model reads what R68 lists, for the tiers R68 permits. -/
theorem csrRead_eq_csrValue (s : State) (e : EngineId) (n : Nat) : csrRead s e n = csrValue s e n := by
  match n with
  | 0 | 6 | 7 => rfl
  | 1 | 2 | 3 | 4 | 5 => by_cases ht : tierOf s e = 0 <;> simp [csrRead, csrValue, ht]
  | m + 8 =>
    by_cases ht : tierOf s e = 0
    · by_cases hb : m ≤ 15
      · simp [csrRead, csrValue, ht, hb, Nat.lt_succ_iff]
      · simp [csrRead, csrValue, ht, hb, Nat.lt_succ_iff, show 16 ≤ m by omega]
    · simp [csrRead, csrValue, ht]

/-- T0 reads every register that is stored. -/
theorem csrValue_of_t0 {s : State} {e : EngineId} {n : Nat} (ht : tierOf s e = 0) (hn : n ≤ 0x27) (h7 : n ≠ 7) :
    csrValue s e n = some (csrStored (engine s e) n) := by
  match n with
  | 0 | 6 => rfl
  | 1 | 2 | 3 | 4 | 5 => simp [csrValue, csrStored, ht]
  | 7 => exact absurd rfl h7
  | m + 8 =>
    by_cases hb : m ≤ 15
    · simp [csrValue, csrStored, ht, hb]
    · simp [csrValue, csrStored, ht, hb, show 16 ≤ m by omega, show m ≤ 31 by omega]

/-- R68: T0 writes every listed register but KC_CYCLE. -/
theorem csrWrite_eq_none_iff (x : Engine) (n : Nat) (v : Word64) : csrWrite x n v = none ↔ n = 7 ∨ 0x27 < n := by
  match n with
  | 0 | 1 | 2 | 3 | 4 | 5 | 6 | 7 => simp [csrWrite]
  | m + 8 =>
    by_cases hb : m + 8 < 0x18
    · simp only [csrWrite, hb, if_true, reduceCtorEq, false_iff]
      omega
    · by_cases hl : m + 8 < 0x28
      · simp only [csrWrite, hb, hl, if_false, if_true, reduceCtorEq, false_iff]
        omega
      · simp only [csrWrite, hb, hl, if_false, true_iff]
        omega

theorem statusWrite_eq_csrAfter (x : Engine) (v : Word64) : statusWrite x.status v = csrAfter x 0 v := by
  have h : v.toNat % 128 / 4 = v.toNat / 4 % 32 := by omega
  simp only [statusWrite, csrAfter, h, if_true]

/-- What a write of an engine register can do: the register holds what R68 to R70 make of the value, and the engine
is otherwise as it was. -/
theorem csrWrite_eq_some {x y : Engine} {n : Nat} {v : Word64} (h : csrWrite x n v = some y) :
    csrStored y n = csrAfter x n v ∧ csrCleared y n = csrCleared x n ∧ y.pc = x.pc
      ∧ (n ≠ 0 → y.status = x.status) := by
  match n with
  | 0 =>
    obtain rfl := Option.some.inj h
    exact ⟨statusWrite_eq_csrAfter x v, rfl, rfl, fun h => absurd rfl h⟩
  | 1 | 2 | 3 | 4 | 5 | 6 =>
    obtain rfl := Option.some.inj h
    exact ⟨rfl, rfl, rfl, fun _ => rfl⟩
  | 7 => exact absurd ((csrWrite_eq_none_iff x 7 v).2 (.inl rfl)) (h ▸ Option.some_ne_none y)
  | m + 8 =>
    by_cases hb : m + 8 < 0x18
    · obtain rfl := Option.some.inj ((if_pos hb).symm.trans h)
      simp [csrStored, csrAfter, csrCleared, show m ≤ 15 by omega]
    · by_cases hl : m + 8 < 0x28
      · obtain rfl := Option.some.inj (((if_neg hb).trans (if_pos hl)).symm.trans h)
        simp [csrStored, csrAfter, csrCleared, show ¬ m ≤ 15 by omega]
      · exact absurd ((csrWrite_eq_none_iff x (m + 8) v).2 (.inr (by omega))) (h ▸ Option.some_ne_none y)

/-! ## CSR.RD and CSR.WR (R119) -/

/-- CSR.RD of a register the tier may read. -/
theorem csrRd_reads {s : State} {e : EngineId} {sel : BitVec 10} {v : Word64} (hs : starts s e)
    (hv : csrValue s e sel.toNat = some v) (kd : KReg) :
    ∃ t, exec (.csrRd e kd sel) s = .next t
      ∧ wrote s t e kd v ((engine s e).pc + 4) ∧ { t with engines := s.engines, perf := s.perf } = s := by
  have hx : exec (.csrRd e kd sel) s = .next (runAlu e kd (fun _ => v) s) := by
    show Host.Outcome.next (runInstr e _ s) = _
    rw [runAlu, runInstr_of_starts hs, runInstr_of_starts hs, csrRead_eq_csrValue, hv]
  exact ⟨_, hx, runAlu_spec hs kd (fun _ => v)⟩

/-- CSR.RD of a register that is not listed or that the tier may not read. -/
theorem csrRd_traps {s : State} {e : EngineId} {sel : BitVec 10} (hs : starts s e) (ht : ¬ inTrap s e)
    (hv : csrValue s e sel.toNat = none) (kd : KReg) :
    ∃ t, exec (.csrRd e kd sel) s = .next t
      ∧ trapEntry s t e 0x02 ((encSys 0 kd 0 sel).setWidth 64) (engine s e).pc
      ∧ { t with engines := s.engines, perf := s.perf } = s :=
  ⟨_, rfl, runInstr_traps hs ht (by decide) (by simp only [csrRead_eq_csrValue, hv]; rfl)⟩

/-- An instruction that starts, replaces its engine's registers and goes on at the next word. -/
theorem runInstr_replaces {s : State} {e : EngineId} {y : Engine} {body : State → State} (hs : starts s e)
    (hb : body s = advance e (setEngine e y s)) :
    engine (runInstr e body s) e = { y with pc := y.pc + 4 }
      ∧ (∀ f, f ≠ e.val → engine (runInstr e body s) f = engine s f)
      ∧ { runInstr e body s with engines := s.engines, perf := s.perf } = s := by
  obtain ⟨hengines, hframe⟩ := runInstr_engines hs (body := body) (by rw [hb]; rfl)
  have he : ∀ f, engine (runInstr e body s) f = engine (advance e (setEngine e y s)) f := fun f => by
    rw [engine, hengines, hb, engine]
  refine ⟨?_, fun f hf => ?_, hframe⟩
  · rw [he, advance, engine_setPc_self, engine_setEngine_self]
  · rw [he, advance, engine_setPc_ne _ _ hf, engine_setEngine_ne _ _ hf]

/-- CSR.WR in T0 of a register R68 lets it write, unless it would set prev_tier to 0b11 (R70). -/
theorem csrWr_writes {s : State} {e : EngineId} {ka : KReg} {sel : BitVec 10} {y : Engine} (hs : starts s e)
    (h0 : tierOf s e = 0) (hy : csrWrite (engine s e) sel.toNat (kget s e ka) = some y)
    (hp : ¬ (sel.toNat = 0 ∧ (kget s e ka).toNat / 4 % 4 = 3)) :
    ∃ t, exec (.csrWr e ka sel) s = .next t ∧ engine t e = { y with pc := y.pc + 4 }
      ∧ (∀ f, f ≠ e.val → engine t f = engine s f) ∧ { t with engines := s.engines, perf := s.perf } = s := by
  refine ⟨_, rfl, runInstr_replaces hs ?_⟩
  simp [h0, hy, hp]

/-- CSR.WR of a register that is not listed, of KC_CYCLE, or outside T0. -/
theorem csrWr_traps {s : State} {e : EngineId} {sel : BitVec 10} (hs : starts s e) (ht : ¬ inTrap s e)
    (hn : tierOf s e ≠ 0 ∨ sel.toNat = 7 ∨ 0x27 < sel.toNat) (ka : KReg) :
    ∃ t, exec (.csrWr e ka sel) s = .next t
      ∧ trapEntry s t e 0x02 ((encSys 1 0 ka sel).setWidth 64) (engine s e).pc
      ∧ { t with engines := s.engines, perf := s.perf } = s := by
  refine ⟨_, rfl, runInstr_traps hs ht (by decide) ?_⟩
  by_cases h0 : tierOf s e = 0
  · have hw := (csrWrite_eq_none_iff (engine s e) _ (kget s e ka)).2 (hn.resolve_left (not_not_intro h0))
    simp only [h0, hw]; rfl
  · simp only [h0, ne_eq, not_false_eq_true, if_true]; rfl

/-- R70: CSR.WR that would set prev_tier to 0b11. -/
theorem csrWr_status_traps {s : State} {e : EngineId} {ka : KReg} (hs : starts s e) (ht : ¬ inTrap s e)
    (h0 : tierOf s e = 0) (hp : (kget s e ka).toNat / 4 % 4 = 3) :
    ∃ t, exec (.csrWr e ka 0) s = .next t
      ∧ trapEntry s t e 0x01 ((encSys 1 0 ka 0).setWidth 64) (engine s e).pc
      ∧ { t with engines := s.engines, perf := s.perf } = s := by
  refine ⟨_, rfl, runInstr_traps hs ht (by decide) ?_⟩
  simp [h0, hp, csrWrite, trapHere, causeIllegal]

/-- Settles O6: CSR.RD reads `csrValue`, CSR.WR does what `csrWrite` can do, and each refusal is one trap. -/
theorem engineRegisters : Obligations.EngineRegisters := by
  refine ⟨fun s e kd sel v hs hv => csrRd_reads hs hv kd, fun s e ka sel hs h0 hn h7 hp => ?_,
    fun s e k sel hs ht => ⟨fun hv => csrRd_traps hs ht hv k, fun hn => csrWr_traps hs ht hn k, ?_⟩⟩
  · obtain ⟨y, hy⟩ : ∃ y, csrWrite (engine s e) sel.toNat (kget s e ka) = some y :=
      Option.ne_none_iff_exists'.1 fun h => by
        have := (csrWrite_eq_none_iff _ _ _).1 h
        omega
    obtain ⟨hstored, hcleared, hpc, hstatus⟩ := csrWrite_eq_some hy
    have hsel : sel = 0 ↔ sel.toNat = 0 := by bv_omega
    obtain ⟨t, hx, hte, hother, hframe⟩ := csrWr_writes hs h0 hy fun h => hp (hsel.2 h.1) h.2
    refine ⟨t, hx, fun hne _ => ?_, fun hz => ?_, ?_, ?_, hother, hframe⟩
    · have ht0 : tierOf t e = 0 := by
        rw [← h0, tierOf, tierOf, hte]
        exact congrArg (·.toNat % 4) (hstatus fun h => hne (hsel.2 h))
      rw [csrValue_of_t0 ht0 hn h7, hte]
      exact congrArg some hstored
    · subst hz
      rw [hte]
      exact hstored
    · rw [hte, hpc]
    · rw [hte, ← hpc]
      exact hcleared
  · rintro rfl h0 hp
    exact csrWr_status_traps hs ht h0 hp

end Sys2Proof.Machine
end

section
/-!
The results of Krenus-C arithmetic (R115, R116): each operation on words as the number the rules name, and the statement
about the 27 arithmetic instructions.
-/
namespace Sys2Proof.Machine
open Sys2Proof.Claims

/-! ## Word operations as numbers -/

theorem sub_eq_ofInt (a b : Word64) : a - b = BitVec.ofInt 64 (a.toNat - b.toNat : Int) := by
  rw [Int.sub_eq_add_neg, BitVec.ofInt_add, BitVec.ofInt_neg, BitVec.ofInt_natCast, BitVec.ofInt_natCast]
  simp [BitVec.sub_eq_add_neg]

theorem shiftLeft_eq_ofNat (a : Word64) (n : Nat) : a <<< n = BitVec.ofNat 64 (a.toNat * 2 ^ n) :=
  BitVec.eq_of_toNat_eq (by simp [Nat.shiftLeft_eq])

theorem ushiftRight_eq_ofNat (a : Word64) (n : Nat) : a >>> n = BitVec.ofNat 64 (a.toNat / 2 ^ n) := by
  rw [← Nat.shiftRight_eq_div_pow, ← BitVec.toNat_ushiftRight, BitVec.ofNat_toNat, BitVec.setWidth_eq]

theorem sshiftRight_eq_ofInt (a : Word64) (n : Nat) : a.sshiftRight n = BitVec.ofInt 64 (a.toInt / (2 ^ n : Int)) := by
  simp [BitVec.sshiftRight, Int.shiftRight_eq_div_pow]

/-- A rotation is the sum of the two shifted parts, which share no bit. -/
theorem rotateRight_eq_ofNat (a : Word64) {n : Nat} (h : n < 64) :
    a.rotateRight n = BitVec.ofNat 64 (a.toNat / 2 ^ n + a.toNat * 2 ^ (64 - n)) := by
  have hdisjoint : a >>> n &&& a <<< (64 - n) = 0#64 := by
    ext i hi
    simp only [BitVec.getElem_and, BitVec.getElem_ushiftRight, BitVec.getElem_shiftLeft, BitVec.getElem_zero]
    by_cases hlow : i < 64 - n
    · simp [hlow]
    · simp [BitVec.getLsbD_of_ge a (n + i) (by omega)]
  rw [BitVec.rotateRight_def, Nat.mod_eq_of_lt h, BitVec.ofNat_add, ← ushiftRight_eq_ofNat, ← shiftLeft_eq_ofNat,
    BitVec.add_eq_or_of_and_eq_zero _ _ hdisjoint]

theorem mulHigh_toNat (a b : Word64) : (mulHigh a b).toNat = a.toNat * b.toNat / 2 ^ 64 :=
  Nat.mod_eq_of_lt (Nat.div_lt_of_lt_mul (Nat.mul_lt_mul'' a.isLt b.isLt))

theorem divU_toNat (a b : Word64) : (divU a b).toNat = if b.toNat = 0 then 2 ^ 64 - 1 else a.toNat / b.toNat := by
  by_cases h : b = 0
  · subst h; rfl
  · have h0 : b.toNat ≠ 0 := fun hz => h (BitVec.eq_of_toNat_eq hz)
    rw [divU, if_neg h, if_neg h0, BitVec.toNat_udiv]

theorem remU_toNat (a b : Word64) : (remU a b).toNat = a.toNat % b.toNat := by
  by_cases h : b = 0
  · subst h; exact (Nat.mod_zero _).symm
  · rw [remU, if_neg h, BitVec.toNat_umod]

theorem divS_eq_ofInt (a b : Word64) :
    divS a b = if b = 0 then BitVec.ofInt 64 (-1) else BitVec.ofInt 64 (a.toInt.tdiv b.toInt) := by
  by_cases h : b = 0
  · rw [divS, if_pos h, if_pos h]; rfl
  · rw [divS, if_neg h, if_neg h]
    exact BitVec.eq_of_toInt_eq (by rw [BitVec.toInt_sdiv, BitVec.toInt_ofInt])

theorem remS_toInt (a b : Word64) : (remS a b).toInt = a.toInt.tmod b.toInt := by
  by_cases h : b = 0
  · subst h; exact (Int.tmod_zero _).symm
  · rw [remS, if_neg h, BitVec.toInt_srem]

theorem popCount_toNat (a : Word64) : (popCount a).toNat = ((List.range 64).filter (a.getLsbD ·)).length := by
  have hle := List.length_filter_le (a.getLsbD ·) (List.range 64)
  rw [List.length_range] at hle
  exact Nat.mod_eq_of_lt (by omega)

/-! ## Zero counts -/

/-- Counting from 0 while `p` holds stops at the first number where it does not. -/
theorem length_takeWhile_range {p : Nat → Bool} {m n : Nat} (hn : n < m) (hp : p n = false)
    (hbelow : ∀ i < n, p i = true) : ((List.range m).takeWhile p).length = n := by
  have hfirst : (List.range m).findIdx (fun i => !p i) = n :=
    (List.findIdx_eq (by simpa)).2 ⟨by simpa, fun j hj => by simp [hbelow j hj]⟩
  rw [List.takeWhile_eq_take_findIdx_not, hfirst, List.length_take_of_le (by simp; omega)]

theorem leadZeros_zero : leadZeros 0 = 64 := by decide

theorem trailZeros_zero : trailZeros 0 = 64 := by decide

/-- The highest 1 bit says the number of leading zeros. -/
theorem leadZeros_toNat {a : Word64} {n : Nat} (hn : n < 64) (h1 : a.getLsbD (63 - n) = true)
    (h0 : ∀ i < n, a.getLsbD (63 - i) = false) : (leadZeros a).toNat = n := by
  rw [leadZeros, length_takeWhile_range hn (by simp [h1]) fun i hi => by simp [h0 i hi]]
  exact Nat.mod_eq_of_lt (by omega)

/-- The lowest 1 bit says the number of trailing zeros. -/
theorem trailZeros_toNat {a : Word64} {n : Nat} (hn : n < 64) (h1 : a.getLsbD n = true)
    (h0 : ∀ i < n, a.getLsbD i = false) : (trailZeros a).toNat = n := by
  rw [trailZeros, length_takeWhile_range hn (by simp [h1]) fun i hi => by simp [h0 i hi]]
  exact Nat.mod_eq_of_lt (by omega)

/-! ## The byte swap -/

@[simp] theorem length_leBytes (n v : Nat) : (leBytes n v).length = n := by
  induction n generalizing v with
  | zero => rfl
  | succ n ih => simp [leBytes, ih]

/-- A bit of a little-endian byte is a bit of the number. -/
theorem getLsbD_leBytes {n i j : Nat} (v : Nat) (hi : i < n) (hj : j < 8) :
    ((leBytes n v).getD i 0).getLsbD j = v.testBit (8 * i + j) := by
  induction n generalizing v i with
  | zero => omega
  | succ n ih =>
    cases i with
    | zero =>
      rw [leBytes, List.getD_cons_zero, BitVec.getLsbD_ofNat, decide_eq_true hj, Bool.true_and, Nat.mul_zero,
        Nat.zero_add]
    | succ i =>
      rw [leBytes, List.getD_cons_succ, ih _ (by omega), show 256 = 2 ^ 8 from rfl, Nat.testBit_div_two_pow]
      congr 1
      omega

theorem beNat_concat (bs : List Byte) (b : Byte) : beNat (bs ++ [b]) = 2 ^ 8 * beNat bs + b.toNat := by
  simp [beNat, Nat.mul_comm]

/-- A bit of a big-endian number is a bit of the byte that far from the end. -/
theorem testBit_beNat_reverse (bs : List Byte) {i j : Nat} (hj : j < 8) :
    (beNat bs.reverse).testBit (8 * i + j) = (bs.getD i 0).getLsbD j := by
  induction bs generalizing i with
  | nil => simp [beNat]
  | cons b bs ih =>
    rw [List.reverse_cons, beNat_concat, Nat.testBit_two_pow_mul_add _ b.isLt]
    cases i with
    | zero => simp [hj, BitVec.getLsbD]
    | succ i =>
      rw [if_neg (by omega), List.getD_cons_succ, ← ih]
      congr 1
      omega

theorem getLsbD_byteSwap (a : Word64) {i j : Nat} (hi : i < 8) (hj : j < 8) :
    (byteSwap a).getLsbD (8 * i + j) = a.getLsbD (8 * (7 - i) + j) := by
  have hrev : (leBytes 8 a.toNat).reverse.getD i 0 = (leBytes 8 a.toNat).getD (8 - 1 - i) 0 := by
    rw [List.getD_eq_getElem?_getD, List.getElem?_reverse (by rw [length_leBytes]; exact hi), length_leBytes,
      List.getD_eq_getElem?_getD]
  have hbit := testBit_beNat_reverse (leBytes 8 a.toNat).reverse (i := i) hj
  rw [List.reverse_reverse, hrev, getLsbD_leBytes _ (by omega) hj] at hbit
  calc (byteSwap a).getLsbD (8 * i + j)
      = (decide (8 * i + j < 64) && (beNat (leBytes 8 a.toNat)).testBit (8 * i + j)) := BitVec.getLsbD_ofNat _ _ _
    _ = (beNat (leBytes 8 a.toNat)).testBit (8 * i + j) := by rw [decide_eq_true (by omega), Bool.true_and]
    _ = a.getLsbD (8 * (7 - i) + j) := hbit

/-! ## Immediate and upper forms -/

theorem add_signExtend_eq_ofInt (a : Word64) (imm : BitVec 16) :
    a + imm.signExtend 64 = BitVec.ofInt 64 (a.toInt + imm.toInt) := by
  rw [BitVec.ofInt_add, BitVec.ofInt_toInt]
  rfl

theorem getLsbD_setWidth16 (imm : BitVec 16) (i : Nat) : (imm.setWidth 64).getLsbD i = imm.getLsbD i := by
  rw [BitVec.getLsbD_setWidth]
  by_cases h : i < 64
  · simp [h]
  · simp [h, imm.getLsbD_of_ge i (by omega)]

theorem upper_eq_ofInt (imm : BitVec 21) : imm.signExtend 64 <<< 16 = BitVec.ofInt 64 (imm.toInt * 2 ^ 16) := by
  rw [BitVec.ofInt_mul, BitVec.shiftLeft_eq_mul_twoPow]
  rfl

/-! ## The 27 instructions -/

/-- One row of R115 or R116: the instruction is `runAlu` of a value `v`, and `v` has the row's property. -/
theorem runAlu_of_result {i : Instr} {s : State} {e e' : EngineId} {kd kd' : KReg} {P P' : Word64 → Prop}
    (h : some (e', kd', P') = some (e, kd, P)) {v : State → Word64} (hx : exec i s = .next (runAlu e' kd' v s))
    (hv : P' (v s)) : ∃ v, exec i s = .next (runAlu e kd v s) ∧ P (v s) := by
  cases h
  exact ⟨v, hx, hv⟩

/-- Every instruction of R115 and R116 writes one value to kd, and it is the value the rules give. -/
theorem exec_of_aluResult {i : Instr} {s : State} {e : EngineId} {kd : KReg} {P : Word64 → Prop}
    (h : aluResult s i = some (e, kd, P)) : ∃ v, exec i s = .next (runAlu e kd v s) ∧ P (v s) := by
  cases i with
  | add => exact runAlu_of_result h rfl (by simp [BitVec.ofNat_add])
  | sub => exact runAlu_of_result h rfl (sub_eq_ofInt _ _)
  | and => exact runAlu_of_result h rfl fun _ => BitVec.getLsbD_and
  | or => exact runAlu_of_result h rfl fun _ => BitVec.getLsbD_or
  | xor => exact runAlu_of_result h rfl fun _ => BitVec.getLsbD_xor
  | shl => exact runAlu_of_result h rfl (shiftLeft_eq_ofNat _ _)
  | shr => exact runAlu_of_result h rfl (ushiftRight_eq_ofNat _ _)
  | sar => exact runAlu_of_result h rfl (sshiftRight_eq_ofInt _ _)
  | slt => exact runAlu_of_result h rfl (by simp only [BitVec.slt_iff_toInt_lt])
  | sltu => exact runAlu_of_result h rfl (by simp only [BitVec.ult_iff_lt, BitVec.lt_def])
  | mul => exact runAlu_of_result h rfl (by simp [BitVec.ofNat_mul])
  | mulhu => exact runAlu_of_result h rfl (mulHigh_toNat _ _)
  | divu => exact runAlu_of_result h rfl (divU_toNat _ _)
  | remu => exact runAlu_of_result h rfl (remU_toNat _ _)
  | div => exact runAlu_of_result h rfl (divS_eq_ofInt _ _)
  | rem => exact runAlu_of_result h rfl (remS_toInt _ _)
  | popc => exact runAlu_of_result h rfl (popCount_toNat _)
  | clz => exact runAlu_of_result h rfl ⟨fun h0 => h0 ▸ leadZeros_zero, fun _ => leadZeros_toNat⟩
  | ctz => exact runAlu_of_result h rfl ⟨fun h0 => h0 ▸ trailZeros_zero, fun _ => trailZeros_toNat⟩
  | bswap => exact runAlu_of_result h rfl fun _ hi _ hj => getLsbD_byteSwap _ hi hj
  | crc32c => exact runAlu_of_result h rfl rfl
  | addi => exact runAlu_of_result h rfl (add_signExtend_eq_ofInt _ _)
  | andi => exact runAlu_of_result h rfl fun _ => by rw [BitVec.getLsbD_and, getLsbD_setWidth16]
  | ori => exact runAlu_of_result h rfl fun _ => by rw [BitVec.getLsbD_or, getLsbD_setWidth16]
  | xori => exact runAlu_of_result h rfl fun _ => by rw [BitVec.getLsbD_xor, getLsbD_setWidth16]
  | shi e' kd' ka imm =>
    refine runAlu_of_result h rfl ?_
    dsimp only
    have hn : imm.toNat % 64 < 64 := Nat.mod_lt _ (by decide)
    match imm.toNat / 64 with
    | 0 => exact shiftLeft_eq_ofNat _ _
    | 1 => exact ushiftRight_eq_ofNat _ _
    | 2 => exact sshiftRight_eq_ofInt _ _
    | _ + 3 => exact rotateRight_eq_ofNat _ hn
  | lui => exact runAlu_of_result h rfl (upper_eq_ofInt _)
  | _ => exact nomatch h

/-! ## Words of major 0x01 that are no instruction -/

/-- Minors from 0x15 are not assigned. -/
theorem decodeAlu_unassigned (e : EngineId) {minor : Nat} (h : 0x15 ≤ minor) (kd ka kb : KReg) :
    decodeAlu e minor kd ka kb = none := by
  obtain ⟨n, rfl⟩ := Nat.exists_eq_add_of_le' h
  rfl

/-- A form without kb is no instruction when the word names one (R111). -/
theorem when_kb_named {kb : KReg} (h : kb ≠ 0) (i : Instr) : when (kb == 0) i = none :=
  if_neg fun hb => h (eq_of_beq hb)

/-- POPC, CLZ, CTZ and BSWAP name no kb. -/
theorem decodeAlu_unary (e : EngineId) {minor : Nat} (hlo : 0x10 ≤ minor) (hhi : minor ≤ 0x13) (kd ka : KReg)
    {kb : KReg} (hkb : kb ≠ 0) : decodeAlu e minor kd ka kb = none := by
  obtain rfl | rfl | rfl | rfl : minor = 16 ∨ minor = 17 ∨ minor = 18 ∨ minor = 19 := by omega
  all_goals exact when_kb_named hkb _

/-- A word of major 0x01 is the instruction its minor names, or none. -/
theorem decodeKrenus_reg (e : EngineId) {w : BitVec 32} (h : w.toNat / 2 ^ 26 = 1) :
    decodeKrenus e w = if wordField w 10 6 = 0 then decodeAlu e (w.toNat % 64) (Fin.ofNat 32 (wordField w 25 21))
      (Fin.ofNat 32 (wordField w 20 16)) (Fin.ofNat 32 (wordField w 15 11)) else none := by
  have hmajor : wordField w 31 26 = 1 := congrArg (· % 2 ^ 6) h
  have hminor : wordField w 5 0 = w.toNat % 64 := by simp [wordField]
  simp only [decodeKrenus, hmajor, hminor]

theorem decodeKrenus_reg_none (e : EngineId) {w : BitVec 32} (h : w.toNat / 2 ^ 26 = 1)
    (hbad : 0x15 ≤ w.toNat % 64 ∨ 0x10 ≤ w.toNat % 64 ∧ w.toNat % 64 ≤ 0x13 ∧ w.toNat / 2 ^ 11 % 32 ≠ 0) :
    decodeKrenus e w = none := by
  rw [decodeKrenus_reg e h]
  split
  · obtain hminor | ⟨hlo, hhi, hkb⟩ := hbad
    · exact decodeAlu_unassigned e hminor _ _ _
    · refine decodeAlu_unary e hlo hhi _ _ fun hz => hkb ?_
      simpa [wordField] using congrArg Fin.val hz
  · rfl

/-- Settles O1: each instruction is `runAlu` of the value the rules give, and `decodeAlu` refuses the other words. -/
theorem arithmeticResults : Obligations.ArithmeticResults := by
  refine ⟨fun i s e kd P h hs => ?_, fun e w h hbad => decodeKrenus_reg_none e h hbad⟩
  obtain ⟨v, hx, hP⟩ := exec_of_aluResult h
  obtain ⟨hwrote, hframe⟩ := runAlu_spec hs kd v
  exact ⟨v s, _, hP, hx, hwrote, hframe⟩

end Sys2Proof.Machine
end

section
/-!
Trap entry (R83, R84, R112, R119): the words that are no instruction, TRAP.CALL in each tier, and the statement.
-/
namespace Sys2Proof.Machine
open Sys2Proof.Claims

/-- Erased and cleared memory hold no instruction (R112). -/
theorem decodeKrenus_zero_ones (e : EngineId) : decodeKrenus e 0 = none ∧ decodeKrenus e 0xFFFFFFFF = none :=
  ⟨rfl, rfl⟩

/-- ILLEGAL_INSTRUCTION, with the word in KC_TVAL (R84). -/
theorem illegalInstruction_traps {s : State} {e : EngineId} {word : BitVec 32} (hs : starts s e) (ht : ¬ inTrap s e)
    (hw : decodeKrenus e word = none) :
    ∃ t, exec (.illegalInstruction e word) s = .next t ∧ trapEntry s t e 0x01 (word.setWidth 64) (engine s e).pc
      ∧ { t with engines := s.engines, perf := s.perf } = s := by
  refine ⟨_, rfl, runInstr_traps hs ht (by decide) ?_⟩
  rw [hw]
  rfl

/-- TRAP_CALL, with the call's number in KC_TVAL; KC_EPC is the next instruction (R83, R84). -/
theorem trapCall_traps {s : State} {e : EngineId} (hs : starts s e) (ht : ¬ inTrap s e) (h0 : tierOf s e ≠ 0)
    (sel : BitVec 10) :
    ∃ t, exec (.trapCall e sel) s = .next t ∧ trapEntry s t e 0x10 (sel.setWidth 64) ((engine s e).pc + 4)
      ∧ { t with engines := s.engines, perf := s.perf } = s :=
  ⟨_, rfl, runInstr_traps hs ht (by decide) (if_neg h0)⟩

/-- T0 has no tier to call, so the word is illegal there (R119). -/
theorem trapCall_t0_traps {s : State} {e : EngineId} (hs : starts s e) (ht : ¬ inTrap s e) (h0 : tierOf s e = 0)
    (sel : BitVec 10) :
    ∃ t, exec (.trapCall e sel) s = .next t
      ∧ trapEntry s t e 0x01 ((encSys 2 0 0 sel).setWidth 64) (engine s e).pc
      ∧ { t with engines := s.engines, perf := s.perf } = s :=
  ⟨_, rfl, runInstr_traps hs ht (by decide) (if_pos h0)⟩

end Sys2Proof.Machine

namespace Sys2Proof.Proofs
open Sys2Proof.Machine

/-- Settles O7: each clause is the entry of one trap. -/
theorem trapEntry : Obligations.TrapEntry :=
  ⟨decodeKrenus_zero_ones, fun _ _ hs ht => ⟨fun _ hw => illegalInstruction_traps hs ht hw,
    fun sel h0 => trapCall_traps hs ht h0 sel, fun sel h0 => trapCall_t0_traps hs ht h0 sel⟩⟩

end Sys2Proof.Proofs
end
